-- ==== Sys2Proof/Word.lean ====
section
/-!
DEFINITION. Word.lean: the word types of the Z8 and the sparse tables its state is held in.
Hexadecimal offsets of this package are the spec's own (00_scope.md R6); bit 0 is least significant.
-/
namespace Sys2Proof

/-- A byte of device memory, scratchpad, a record area or a message (R6: little-endian everywhere). -/
abbrev Byte := BitVec 8

/-- A 32-bit register word of BAR0 (R646). -/
abbrev Word := BitVec 32

/-- A 64-bit scalar register of a control core (R199). -/
abbrev Dword := BitVec 64

/-- A sparse table: the entries that were written, by index. What an index that is not listed holds is
said where the table is read. Keys rise strictly (`Tab.rising`), so a table has one form per set of entries. -/
abbrev Tab (α : Type) := List (Nat × α)

namespace Tab
variable {α : Type}

/-- The entry at index `i`, if one is listed. -/
def find? : Tab α → Nat → Option α
  | [], _ => none
  | (k, v) :: r, i => if k = i then some v else find? r i

/-- The entry at index `i`, `d` where none is listed. -/
def get (d : α) (t : Tab α) (i : Nat) : α := (t.find? i).getD d

/-- The table with `v` at index `i` and every other index as before. -/
def put : Tab α → Nat → α → Tab α
  | [], i, v => [(i, v)]
  | (k, w) :: r, i, v =>
    if i = k then (i, v) :: r else if i < k then (i, v) :: (k, w) :: r else (k, w) :: put r i v

/-- The table with index `i` no longer listed. -/
def drop : Tab α → Nat → Tab α
  | [], _ => []
  | (k, w) :: r, i => if k = i then drop r i else (k, w) :: drop r i

/-- The table with `f` of its old entry (`d` where none is listed) at index `i`. -/
def upd (d : α) (t : Tab α) (i : Nat) (f : α → α) : Tab α := t.put i (f (t.get d i))

/-- The keys rise strictly. -/
def rising : Tab α → Bool
  | [] => true
  | [_] => true
  | (a, _) :: (b, w) :: r => a < b && rising ((b, w) :: r)

end Tab

/-- Bits `lo` to `lo + w - 1` of a vector, as a number. -/
def bits {n : Nat} (x : BitVec n) (lo w : Nat) : Nat := x.toNat / 2 ^ lo % 2 ^ w

/-- Bit `i` of a vector. -/
def bit {n : Nat} (x : BitVec n) (i : Nat) : Bool := x.getLsbD i

/-- The vector with bits `lo` to `lo + w - 1` replaced by the low `w` bits of `v`. -/
def setBits {n : Nat} (x : BitVec n) (lo w v : Nat) : BitVec n :=
  let m : BitVec n := BitVec.ofNat n ((2 ^ w - 1) * 2 ^ lo)
  (x &&& ~~~m) ||| (BitVec.ofNat n (v % 2 ^ w * 2 ^ lo))

/-- A truth value as a number: 1 or 0. -/
def b2n (b : Bool) : Nat := if b then 1 else 0

/-- A number read as a signed number of `w` bits. -/
def signed (w v : Nat) : Int := if v % 2 ^ w < 2 ^ (w - 1) then (v % 2 ^ w : Nat) else (v % 2 ^ w : Nat) - (2 : Int) ^ w

/-- A signed number as the unsigned number of `w` bits that encodes it in two's complement. -/
def unsigned (w : Nat) (v : Int) : Nat := (v % (2 : Int) ^ w).toNat

/-- Addition that stops at the largest value of `w` bits (the spec's "saturating"). -/
def satAdd (w a b : Nat) : Nat := min (a + b) (2 ^ w - 1)

/-- Division rounded up. -/
def ceilDiv (a b : Nat) : Nat := (a + b - 1) / b

/-- The number whose little-endian bytes are `bs` (R6). -/
def ofBytes : List Byte → Nat
  | [] => 0
  | b :: r => b.toNat + 256 * ofBytes r

/-- The `n` little-endian bytes of `v` (R6). -/
def toBytes : Nat → Nat → List Byte
  | 0, _ => []
  | n + 1, v => BitVec.ofNat 8 v :: toBytes n (v / 256)

/-- The numbers 0 to n - 1. -/
def upTo (n : Nat) : List Nat := List.range n

end Sys2Proof
end

