-- ==== Sys2Proof/Types.lean ====
section
/-!
DEFINITION. Types.lean: the small types that commands and state share: requesters, directions, thread states,
event sources, and what the Z8 sends out of its connectors.
-/
namespace Sys2Proof

/-- The four requesters that reach registers (23_register_conventions_and_map.md). -/
inductive Requester where
  | h0 | h1 | joinery | tumbler
  deriving DecidableEq, Repr

/-- The requester's number in GLB_STATUS.REQUESTER and DB_LAST (R640, R641). -/
def Requester.code : Requester → Nat
  | .h0 => 0
  | .h1 => 1
  | .joinery => 2
  | .tumbler => 3

/-- The host port of a requester that is a host: 0 for H0, 1 for H1. -/
def Requester.port? : Requester → Option Nat
  | .h0 => some 0
  | .h1 => some 1
  | _ => none

/-- The requester that a host port is. -/
def Requester.ofPort (p : Nat) : Requester := if p = 0 then .h0 else .h1

/-- How a PCIe completion ended (R387, R475). -/
inductive CplStatus where
  | success | unsupported | abort | poisoned | retry
  deriving DecidableEq, Repr

/-- A response of the SPDM responder (R599, R600): the values that the spec gives it. The byte layout of SPDM messages is that
of the SPDM standard, which the spec names and does not repeat. -/
inductive SpdmReply where
  | version (major minor : Nat)
  /-- CERT_CAP, CHAL_CAP, MEAS_CAP with signature; nothing else -/
  | capabilities (cert chal measSig : Bool)
  /-- the names of the signature and the hash algorithm, for base and for measurements -/
  | algorithms (sig baseHash measHash : String)
  /-- a mask of the slots that hold a chain, and the digest of slot 0 -/
  | digests (mask : Nat) (slot0 : List Byte)
  | certificate (slot : Nat) (part : List Byte) (rest : Nat)
  | challenge (nonce : List Byte) (chain : List Byte) (signature : List Byte)
  /-- blocks (index, value type, whether the value is a digest, value), and the signature when one was asked for (R600) -/
  | measurements (blocks : List (Nat × Nat × Bool × List Byte)) (signature : List Byte)
  | error (name : String)
  deriving DecidableEq, Repr

/-- What happens in one start attempt (R567, R568, R573) beside what the module's own contents decide. -/
structure Attempt where
  /-- step (from 0) at which the attempt stops: `true` when that step fails, `false` when it is still in progress -/
  stop : Option (Fin 9 × Bool) := none
  /-- physical cores that fail the self-test of the start -/
  bad : List (Fin 136) := []
  /-- stacks that fail to train in a cold start (R354), or whose two sums differ in a warm start (R575) -/
  badStk : List (Fin 32) := []
  /-- pseudo-channel lines that fail the training screen (R354) -/
  lines : List (Fin 1024 × Fin 35) := []
  /-- milliseconds that each step took -/
  ms : List (BitVec 16) := []
  /-- host ports whose link is up when ready is signalled -/
  links : List (Fin 2) := []
  /-- the write of the start record fails (R577) -/
  flashBad : Bool := false
  deriving DecidableEq, Repr, Inhabited

/-- A PLDM firmware-update command for the one component, the Joinery image (R611): inventory and status commands, or a piece
of the image, which Joinery puts into HBM at `addr`. -/
inductive FwOp where
  | inventory
  | piece (addr : BitVec 40) (data : List Byte)
  | complete
  deriving DecidableEq, Repr

/-- What leaves the module through its connectors: the effects of a command that a reader outside sees (R3). -/
inductive Output where
  /-- A write request to host memory through host port `port` (completion records, data, R478). -/
  | hostWrite (port addr : Nat) (data : List Byte)
  /-- A read request to host memory, answered by HOST_DMA_COMPLETION or COMPLETION_TIMEOUT under the same tag. -/
  | hostRead (port tag addr len : Nat)
  /-- An MSI-X message (R643). -/
  | msix (port addr : Nat) (data : Word)
  /-- The completion of a host's read, AtomicOp or configuration request. -/
  | completion (port : Nat) (status : CplStatus) (data : List Byte)
  /-- The value that a register read returns to its requester. -/
  | regData (r : Requester) (off : Nat) (v : Word)
  /-- An AER report on a host port (R461, R463). -/
  | aer (port : Nat)
  /-- Device Readiness Status (`false`) or Function Readiness Status (`true`) message (R465, R466). -/
  | readiness (port : Nat) (function : Bool)
  /-- A 15-slot frame sent on an Isaryn port: its acknowledgement fields and its flits (R396, R400). -/
  | frame (port : Nat) (header : Nat) (flits : List (BitVec 2048))
  /-- The response to an MCTP control request: message bytes on a binding (R607). -/
  | mctp (binding : Nat) (bytes : List Byte)
  /-- A PLDM response on a channel: completion code and payload (R611). -/
  | pldm (channel code : Nat) (payload : List Nat)
  /-- An SPDM response on a channel (R599). -/
  | spdm (channel : Nat) (r : SpdmReply)
  /-- An I3C in-band interrupt with its mandatory byte (R608). -/
  | ibi (byte : Nat)
  /-- A CPER record reported to a registered receiver (R622, R623): Creator ID, Notification Type, the severity of the record and of
  its section, Section Type, FRU Text, and the 96-byte vendor section. -/
  | cper (binding : Nat) (creator notification : String) (severity : Nat) (sectionType fru : String) (vendor : List Byte)
  /-- A PLDM state-sensor event (R616). -/
  | sensorEvent (binding sensor value : Nat)
  /-- A level driven on a pin of the sideband connector. -/
  | pin (name : String) (level : Bool)
  deriving DecidableEq, Repr

/-- Who writes a record of the record areas (R375, R463): a host through BAR2, a transfer or engine of a memory
partition, or Joinery. -/
inductive Writer where
  | host (p : Fin 2)
  | part (p : Fin 16)
  | joinery
  deriving DecidableEq, Repr

/-- The guard of a scalar instruction (R209): predicate `pg`, inverted by `pn`. -/
structure Guard where
  pg : Fin 8
  pn : Bool
  deriving DecidableEq, Repr

/-- The AtomicOps that a port completes (R458). -/
inductive PcieAtomic where
  | fetchAdd | swap | cas
  deriving DecidableEq, Repr

/-- The configuration-space fields that this manual describes (R458, R460, R462, R643). -/
inductive CfgReg where
  | identifiers | classCode | dvsecPort | wbaseLo | wbaseHi | bar2Size | functionMask
  /-- the power state: 0 D0, 3 D3hot -/
  | powerState
  deriving DecidableEq, Repr

/-- The Deadbolt registers of the module (R637). -/
inductive DbReg where
  | trnPeriod
  | memPartOwn (p : Fin 16)
  | memRange (j : Fin 192)
  | hqOwn (g : Fin 64)
  | lchOwn
  | fltClear
  | strRestart
  | secLock
  deriving DecidableEq, Repr

/-- BAR0 offset of the value half; the complement half is 4 above (R635). -/
def DbReg.off : DbReg → Nat
  | .trnPeriod => 0x10008
  | .memPartOwn p => 0x300400 + 8 * p.val
  | .memRange j => 0x301000 + 8 * j.val
  | .hqOwn g => 0x100000 + 0x40 * (256 * g.val) + 0x38
  | .lchOwn => 0x20010
  | .fltClear => 0x500014
  | .strRestart => 0x60F004
  | .secLock => 0x60000C

/-- The arrays of a core that carry check bits for each 64-bit word (R150, R190, R372). -/
inductive Sram where
  | acc | vec | spd
  deriving DecidableEq, Repr

/-- A bit that flips in a storage array without any command: in word `w` of an array of physical core `core`, or in a cache
line (R150, R190, R208, R372). -/
inductive Upset where
  | none
  | word (core : Nat) (a : Sram) (w : Nat)
  | icache (core line : Nat)
  | dcache (core line : Nat)
  | panel (panel line : Nat)
  deriving DecidableEq, Repr, Inhabited

/-- Where a matrix array goes wrong in a tile step (R121, R122, R129): in the exact window of a cell, in the significand that
its rounding keeps, in a checksum cell of a column or row; or, in an ATTB, in the tile maximum of a row (R274). -/
inductive ErrKind where
  | window | rounded | column | row | rowMax
  deriving DecidableEq, Repr

/-- An error of the array: the cell, the group of the output tile, and by how much the value is off, in units of the last place
of the window. -/
structure ArrayErr where
  kind : ErrKind
  row : Fin 256
  col : Fin 256
  group : Fin 16384
  delta : Int
  deriving DecidableEq, Repr

/-- What a row of ATTB carries out: the running command of tag `tag`, with the error `err` of the array, where there is one. -/
structure ArrayJob where
  tag : Fin 4096
  err : Option ArrayErr
  deriving DecidableEq, Repr

/-- What goes wrong as a controller serves a request: the symbol positions that the array returns wrong (R347), and how many times in
a row the request and its response meet a CRC mismatch on the fabric, the fifth time being the last (R511). -/
structure ServeErrs where
  symbols : List (Fin 68) := []
  req : Fin 6 := 0
  rsp : Fin 6 := 0
  deriving DecidableEq, Repr

/-- The context of a command (R232): a hardware thread, or a queue and the ring index of the descriptor. -/
inductive Ctx where
  | thread (t : Nat)
  | queue (q slot : Nat)
  deriving DecidableEq, Repr

end Sys2Proof
end

