-- ==== Sys2Proof/Syntax.lean ====
section
/-!
DEFINITION. Syntax.lean: the commands of the Z8, one constructor per row of the spec's table of operations and
events, in the table's order. Each docstring names the row and the rule that governs it.
-/
namespace Sys2Proof

/-- A command: one whole, indivisible step of the Z8 (spec/95_what_each_step_holds.md). -/
inductive Instr where
  /-- `TICK` (R20): the turn period expires. -/
  | tick
  /-- `SPINDLE_ENABLE` (R22): a write of `v` with ENABLE 1 to TRN_CTL by requester `r`. -/
  | spindleEnable (r : Requester) (v : Word)
  /-- `SPINDLE_DISABLE` (R51): a write of `v` with ENABLE 0 to TRN_CTL. -/
  | spindleDisable (r : Requester) (v : Word)
  /-- `ROLE_WRITE` (R22): a write to TRN_CTL of role code `role`, the other fields of the register unchanged. -/
  | roleWrite (r : Requester) (role : BitVec 2)
  /-- `TRN_PERIOD_WRITE` (R23): a write of `v` to TRN_PERIOD. -/
  | trnPeriodWrite (r : Requester) (v : Word)
  /-- `TURN_REF_EDGE` (R24): a selected TURN_REF edge, `interval` ns after the one before. -/
  | turnRefEdge (interval : Word)
  /-- `REF_EDGE_TIMEOUT` (R25): no TURN_REF edge within two periods of the last. -/
  | refEdgeTimeout
  /-- `MARKER_MISS` (R29): no marker within 1.5 periods of the expected time. -/
  | markerMiss
  /-- `COST_EXCEEDED` (R42): the Doorstop compares the consumption of main program `prog` with its threshold. -/
  | costExceeded (prog : Nat)
  /-- `CUTOVER` (R42): the cut-over point of class `cls` arrives. -/
  | cutover (cls : Fin 16)
  /-- `MAIN_PROGRAM_STOP` (R43): the overrun main program `prog` reaches a tile boundary. -/
  | mainProgramStop (prog : Nat)
  /-- `FALLBACK_OVERRUN` (R44): fallback program `prog` passes its threshold or its turn ends. -/
  | fallbackOverrun (prog : Nat)
  /-- `TURN_PROGRAM_COMPLETE` (R252): every thread of TURN program `prog` is HALTED and its commands have retired. -/
  | turnProgramComplete (prog : Nat)
  /-- `DESCRIPTOR_READ` (R472): intake 0 (H0), 1 (H1) or 2 (internal) reads a submission ring. -/
  | descriptorRead (intake : Fin 3)
  /-- `COMMAND_START` (R236): the queued command of tag `tag` of logical core `c` starts. -/
  | commandStart (c : Fin 128) (tag : Fin 4096)
  /-- `COMMAND_RETIRE` (R238): the finished command of tag `tag` retires. -/
  | commandRetire (c : Fin 128) (tag : Fin 4096)
  /-- `MMA` (R241): the running MMA of tag `tag` goes on as far as slots and Hatch permit. -/
  | mma (c : Fin 128) (tag : Fin 4096)
  /-- `ATTB` (R271): the running ATTB of tag `job.tag` is computed; `job.err` is an error of the array in it. -/
  | attb (c : Fin 128) (job : ArrayJob)
  /-- `CHAIN` (R258): the running CHAIN of tag `tag` runs the rounds of stage `stage` that its hand-overs permit. -/
  | chain (c : Fin 128) (tag : Fin 4096) (stage : Fin 6)
  /-- `VOP` (R244): the running VOP of tag `tag` goes on until it ends or waits. -/
  | vop (c : Fin 128) (tag : Fin 4096)
  /-- `RED` (R248): core `c` issues its part of the reduction of the RED of tag `tag`. -/
  | red (c : Fin 128) (tag : Fin 4096)
  /-- `XFER` (R376): the running XFER of tag `tag` moves its rows. -/
  | xfer (c : Fin 128) (tag : Fin 4096)
  /-- `XFER_VERIFY` (R384): the running XFER with VERIFY of tag `tag` compares GEN. -/
  | xferVerify (c : Fin 128) (tag : Fin 4096)
  /-- `GATH` (R453): the running GATH of tag `tag` sends its shard. -/
  | gath (c : Fin 128) (tag : Fin 4096)
  /-- `SCAT` (R454): the running SCAT of tag `tag` sends its entries. -/
  | scat (c : Fin 128) (tag : Fin 4096)
  /-- `YIELD` (R501): the queued YIELD of tag `tag` comes into force and retires. -/
  | yield (c : Fin 128) (tag : Fin 4096)
  /-- `TURN` (R250): the TURN descriptor `desc`, read from slot `slot` of queue `q`, is decoded and admitted or refused. -/
  | turn (q : Fin 16384) (slot : Fin 65536) (desc : BitVec 512)
  /-- `TILE_STEP_START` (R102): the array of logical core `c` starts the next tile step of stage `stage`. -/
  | tileStepStart (c : Fin 128) (stage : Fin 6)
  /-- `TILE_STEP_COMPLETE` (R103): the tile step in the array completes; `err` is an error of the array in it. -/
  | tileStepComplete (c : Fin 128) (err : Option ArrayErr)
  /-- `HATCH_ORPHAN` (R243): 2^24 cycles pass in HATCH_WAIT or ACC_WAIT without a vector command. -/
  | hatchOrphan (c : Fin 128)
  /-- `RED_TIMEOUT` (R249): the on-module tree of reduction `rid` (with MODULE or without) has waited 2^24 cycles for a
  contributor. -/
  | redTimeout (module : Bool) (rid : Fin 65536)
  /-- `TREE_NODE_COMBINE` (R155): a node combines: node (`level`, `lo`) of the on-module tree of reduction `rid`, or, where
  `shard` is given, node `level` of this module in the module tree of that shard of group RID [5:0], RID [15:6]; `miss`
  counts how many of its computations fail their residue check. -/
  | treeNodeCombine (module : Bool) (rid : Fin 65536) (shard : Option (Fin 4096)) (level : Fin 32) (lo : Fin 128) (miss : Fin 3)
  /-- `MXE_INJECT` (R129): a write of `v` to MXE_INJECT in the window of physical core `q`. -/
  | mxeInject (r : Requester) (q : Fin 136) (v : Word)
  /-- `VNOP` (R173): the vector engine of logical core `c` carries out instruction `ins`, its OP read as that of VNOP. -/
  | vnop (c : Fin 128) (ins : BitVec 32)
  /-- `VEND` (R176): the vector engine of logical core `c` carries out instruction `ins`, its OP read as that of VEND. -/
  | vend (c : Fin 128) (ins : BitVec 32)
  /-- `VSETVL` (R169): the vector engine of logical core `c` carries out instruction `ins`, its OP read as that of VSETVL. -/
  | vsetvl (c : Fin 128) (ins : BitVec 32)
  /-- `VPASS` (R177): the vector engine of logical core `c` carries out instruction `ins`, its OP read as that of VPASS. -/
  | vpass (c : Fin 128) (ins : BitVec 32)
  /-- `VADD` (R173): the vector engine of logical core `c` carries out instruction `ins`, its OP read as that of VADD. -/
  | vadd (c : Fin 128) (ins : BitVec 32)
  /-- `VSUB` (R173): the vector engine of logical core `c` carries out instruction `ins`, its OP read as that of VSUB. -/
  | vsub (c : Fin 128) (ins : BitVec 32)
  /-- `VMUL` (R173): the vector engine of logical core `c` carries out instruction `ins`, its OP read as that of VMUL. -/
  | vmul (c : Fin 128) (ins : BitVec 32)
  /-- `VMAX` (R174): the vector engine of logical core `c` carries out instruction `ins`, its OP read as that of VMAX. -/
  | vmax (c : Fin 128) (ins : BitVec 32)
  /-- `VMIN` (R174): the vector engine of logical core `c` carries out instruction `ins`, its OP read as that of VMIN. -/
  | vmin (c : Fin 128) (ins : BitVec 32)
  /-- `VABS` (R173): the vector engine of logical core `c` carries out instruction `ins`, its OP read as that of VABS. -/
  | vabs (c : Fin 128) (ins : BitVec 32)
  /-- `VNEG` (R173): the vector engine of logical core `c` carries out instruction `ins`, its OP read as that of VNEG. -/
  | vneg (c : Fin 128) (ins : BitVec 32)
  /-- `VSCL2` (R173): the vector engine of logical core `c` carries out instruction `ins`, its OP read as that of VSCL2. -/
  | vscl2 (c : Fin 128) (ins : BitVec 32)
  /-- `VCMP` (R173): the vector engine of logical core `c` carries out instruction `ins`, its OP read as that of VCMP. -/
  | vcmp (c : Fin 128) (ins : BitVec 32)
  /-- `VSEL` (R173): the vector engine of logical core `c` carries out instruction `ins`, its OP read as that of VSEL. -/
  | vsel (c : Fin 128) (ins : BitVec 32)
  /-- `VCVT` (R174): the vector engine of logical core `c` carries out instruction `ins`, its OP read as that of VCVT. -/
  | vcvt (c : Fin 128) (ins : BitVec 32)
  /-- `VAND` (R173): the vector engine of logical core `c` carries out instruction `ins`, its OP read as that of VAND. -/
  | vand (c : Fin 128) (ins : BitVec 32)
  /-- `VOR` (R173): the vector engine of logical core `c` carries out instruction `ins`, its OP read as that of VOR. -/
  | vor (c : Fin 128) (ins : BitVec 32)
  /-- `VXOR` (R173): the vector engine of logical core `c` carries out instruction `ins`, its OP read as that of VXOR. -/
  | vxor (c : Fin 128) (ins : BitVec 32)
  /-- `VFMA` (R174): the vector engine of logical core `c` carries out instruction `ins`, its OP read as that of VFMA. -/
  | vfma (c : Fin 128) (ins : BitVec 32)
  /-- `VDIV` (R173): the vector engine of logical core `c` carries out instruction `ins`, its OP read as that of VDIV. -/
  | vdiv (c : Fin 128) (ins : BitVec 32)
  /-- `VSQRT` (R173): the vector engine of logical core `c` carries out instruction `ins`, its OP read as that of VSQRT. -/
  | vsqrt (c : Fin 128) (ins : BitVec 32)
  /-- `VRSQ` (R173): the vector engine of logical core `c` carries out instruction `ins`, its OP read as that of VRSQ. -/
  | vrsq (c : Fin 128) (ins : BitVec 32)
  /-- `VEXP2` (R181): the vector engine of logical core `c` carries out instruction `ins`, its OP read as that of VEXP2. -/
  | vexp2 (c : Fin 128) (ins : BitVec 32)
  /-- `VRED` (R180): the vector engine of logical core `c` carries out instruction `ins`, its OP read as that of VRED. -/
  | vred (c : Fin 128) (ins : BitVec 32)
  /-- `VTOP8` (R180): the vector engine of logical core `c` carries out instruction `ins`, its OP read as that of VTOP8. -/
  | vtop8 (c : Fin 128) (ins : BitVec 32)
  /-- `VSUM` (R186): the vector engine of logical core `c` carries out instruction `ins`, its OP read as that of VSUM. -/
  | vsum (c : Fin 128) (ins : BitVec 32)
  /-- `VPERM` (R184): the vector engine of logical core `c` carries out instruction `ins`, its OP read as that of VPERM. -/
  | vperm (c : Fin 128) (ins : BitVec 32)
  /-- `VREV` (R173): the vector engine of logical core `c` carries out instruction `ins`, its OP read as that of VREV. -/
  | vrev (c : Fin 128) (ins : BitVec 32)
  /-- `VROT` (R173): the vector engine of logical core `c` carries out instruction `ins`, its OP read as that of VROT. -/
  | vrot (c : Fin 128) (ins : BitVec 32)
  /-- `VZIP` (R185): the vector engine of logical core `c` carries out instruction `ins`, its OP read as that of VZIP. -/
  | vzip (c : Fin 128) (ins : BitVec 32)
  /-- `VDRN` (R176): the vector engine of logical core `c` carries out instruction `ins`, its OP read as that of VDRN. -/
  | vdrn (c : Fin 128) (ins : BitVec 32)
  /-- `VPOP` (R176): the vector engine of logical core `c` carries out instruction `ins`, its OP read as that of VPOP. -/
  | vpop (c : Fin 128) (ins : BitVec 32)
  /-- `VLD` (R174): the vector engine of logical core `c` carries out instruction `ins`, its OP read as that of VLD. -/
  | vld (c : Fin 128) (ins : BitVec 32)
  /-- `VST` (R174): the vector engine of logical core `c` carries out instruction `ins`, its OP read as that of VST. -/
  | vst (c : Fin 128) (ins : BitVec 32)
  /-- `ADD` (R212): addition modulo 2^64. -/
  | add (c : Fin 128) (t : Fin 8) (g : Guard) (gd ga gb : Fin 32)
  /-- `SUB` (R212): subtraction. -/
  | sub (c : Fin 128) (t : Fin 8) (g : Guard) (gd ga gb : Fin 32)
  /-- `AND` (R212): bitwise and. -/
  | and (c : Fin 128) (t : Fin 8) (g : Guard) (gd ga gb : Fin 32)
  /-- `OR` (R212): bitwise or. -/
  | or (c : Fin 128) (t : Fin 8) (g : Guard) (gd ga gb : Fin 32)
  /-- `XOR` (R212): bitwise exclusive or. -/
  | xor (c : Fin 128) (t : Fin 8) (g : Guard) (gd ga gb : Fin 32)
  /-- `SHL` (R212): shift left by gb[5:0]. -/
  | shl (c : Fin 128) (t : Fin 8) (g : Guard) (gd ga gb : Fin 32)
  /-- `SHR` (R212): logical shift right. -/
  | shr (c : Fin 128) (t : Fin 8) (g : Guard) (gd ga gb : Fin 32)
  /-- `SAR` (R212): arithmetic shift right. -/
  | sar (c : Fin 128) (t : Fin 8) (g : Guard) (gd ga gb : Fin 32)
  /-- `MUL` (R212): low 64 bits of the product. -/
  | mul (c : Fin 128) (t : Fin 8) (g : Guard) (gd ga gb : Fin 32)
  /-- `MULHU` (R212): high 64 bits of the unsigned product. -/
  | mulhu (c : Fin 128) (t : Fin 8) (g : Guard) (gd ga gb : Fin 32)
  /-- `MULH` (R212): high 64 bits of the signed product. -/
  | mulh (c : Fin 128) (t : Fin 8) (g : Guard) (gd ga gb : Fin 32)
  /-- `DIVU` (R212): unsigned division. -/
  | divu (c : Fin 128) (t : Fin 8) (g : Guard) (gd ga gb : Fin 32)
  /-- `REMU` (R212): unsigned remainder. -/
  | remu (c : Fin 128) (t : Fin 8) (g : Guard) (gd ga gb : Fin 32)
  /-- `DIV` (R212): signed division. -/
  | div (c : Fin 128) (t : Fin 8) (g : Guard) (gd ga gb : Fin 32)
  /-- `REM` (R212): signed remainder. -/
  | rem (c : Fin 128) (t : Fin 8) (g : Guard) (gd ga gb : Fin 32)
  /-- `MIN` (R212): signed minimum. -/
  | min (c : Fin 128) (t : Fin 8) (g : Guard) (gd ga gb : Fin 32)
  /-- `MAX` (R212): signed maximum. -/
  | max (c : Fin 128) (t : Fin 8) (g : Guard) (gd ga gb : Fin 32)
  /-- `MINU` (R212): unsigned minimum. -/
  | minu (c : Fin 128) (t : Fin 8) (g : Guard) (gd ga gb : Fin 32)
  /-- `MAXU` (R212): unsigned maximum. -/
  | maxu (c : Fin 128) (t : Fin 8) (g : Guard) (gd ga gb : Fin 32)
  /-- `CLZ` (R212): leading zeros of ga. -/
  | clz (c : Fin 128) (t : Fin 8) (g : Guard) (gd ga gb : Fin 32)
  /-- `POPC` (R212): set bits of ga. -/
  | popc (c : Fin 128) (t : Fin 8) (g : Guard) (gd ga gb : Fin 32)
  /-- `PTOG` (R212): the predicates into gd. -/
  | ptog (c : Fin 128) (t : Fin 8) (g : Guard) (gd ga gb : Fin 32)
  /-- `GTOP` (R212): ga[7:1] into p7 to p1. -/
  | gtop (c : Fin 128) (t : Fin 8) (g : Guard) (gd ga gb : Fin 32)
  /-- `ADDI` (R211): adds an immediate. -/
  | addi (c : Fin 128) (t : Fin 8) (g : Guard) (gd ga : Fin 32) (imm : BitVec 12)
  /-- `ANDI` (R211): and with an immediate. -/
  | andi (c : Fin 128) (t : Fin 8) (g : Guard) (gd ga : Fin 32) (imm : BitVec 12)
  /-- `ORI` (R211): or with an immediate. -/
  | ori (c : Fin 128) (t : Fin 8) (g : Guard) (gd ga : Fin 32) (imm : BitVec 12)
  /-- `XORI` (R211): exclusive or with an immediate. -/
  | xori (c : Fin 128) (t : Fin 8) (g : Guard) (gd ga : Fin 32) (imm : BitVec 12)
  /-- `SHI` (R211): shifts by an immediate amount. -/
  | shi (c : Fin 128) (t : Fin 8) (g : Guard) (gd ga : Fin 32) (imm : BitVec 12)
  /-- `LIM` (R211): loads a sign-extended 17-bit immediate. -/
  | lim (c : Fin 128) (t : Fin 8) (g : Guard) (gd : Fin 32) (imm : BitVec 17)
  /-- `LSH` (R211): shifts gd left by 16 and inserts an immediate. -/
  | lsh (c : Fin 128) (t : Fin 8) (g : Guard) (gd : Fin 32) (imm : BitVec 17)
  /-- `CMP` (R213): compares two registers into a predicate. -/
  | cmp (c : Fin 128) (t : Fin 8) (g : Guard) (pd : Fin 8) (cb : BitVec 2) (ga gb : Fin 32) (fn : BitVec 7)
  /-- `CMPI` (R213): compares a register with an immediate into a predicate. -/
  | cmpi (c : Fin 128) (t : Fin 8) (g : Guard) (pd : Fin 8) (cb : BitVec 2) (ga : Fin 32) (cond : BitVec 4) (imm : BitVec 8)
  /-- `PLOG` (R211): combines two predicates; `low` is bits [12:0]. -/
  | plog (c : Fin 128) (t : Fin 8) (g : Guard) (pd pa pb : Fin 8) (low : BitVec 13)
  /-- `LDB` (R211): cached byte load. -/
  | ldb (c : Fin 128) (t : Fin 8) (g : Guard) (gd ga : Fin 32) (imm : BitVec 12)
  /-- `LDH` (R211): cached 16-bit load. -/
  | ldh (c : Fin 128) (t : Fin 8) (g : Guard) (gd ga : Fin 32) (imm : BitVec 12)
  /-- `LDW` (R211): cached 32-bit load. -/
  | ldw (c : Fin 128) (t : Fin 8) (g : Guard) (gd ga : Fin 32) (imm : BitVec 12)
  /-- `LDWS` (R211): cached sign-extended 32-bit load. -/
  | ldws (c : Fin 128) (t : Fin 8) (g : Guard) (gd ga : Fin 32) (imm : BitVec 12)
  /-- `LDD` (R211): cached 64-bit load. -/
  | ldd (c : Fin 128) (t : Fin 8) (g : Guard) (gd ga : Fin 32) (imm : BitVec 12)
  /-- `LDWX` (R211): uncached 32-bit load. -/
  | ldwx (c : Fin 128) (t : Fin 8) (g : Guard) (gd ga : Fin 32) (imm : BitVec 12)
  /-- `LDDX` (R211): uncached 64-bit load. -/
  | lddx (c : Fin 128) (t : Fin 8) (g : Guard) (gd ga : Fin 32) (imm : BitVec 12)
  /-- `STB` (R211): cached byte store. -/
  | stb (c : Fin 128) (t : Fin 8) (g : Guard) (gs ga : Fin 32) (imm : BitVec 12)
  /-- `STH` (R211): cached 16-bit store. -/
  | sth (c : Fin 128) (t : Fin 8) (g : Guard) (gs ga : Fin 32) (imm : BitVec 12)
  /-- `STW` (R211): cached 32-bit store. -/
  | stw (c : Fin 128) (t : Fin 8) (g : Guard) (gs ga : Fin 32) (imm : BitVec 12)
  /-- `STD` (R211): cached 64-bit store. -/
  | std (c : Fin 128) (t : Fin 8) (g : Guard) (gs ga : Fin 32) (imm : BitVec 12)
  /-- `STWX` (R211): uncached 32-bit store. -/
  | stwx (c : Fin 128) (t : Fin 8) (g : Guard) (gs ga : Fin 32) (imm : BitVec 12)
  /-- `STDX` (R211): uncached 64-bit store. -/
  | stdx (c : Fin 128) (t : Fin 8) (g : Guard) (gs ga : Fin 32) (imm : BitVec 12)
  /-- `LOAD_RETURN` (R200): the memory access that thread `t` waits on completes. -/
  | loadReturn (c : Fin 128) (t : Fin 8)
  /-- `AMO_SWAP` (R214): atomic swap; `w32` is FN[6]. -/
  | amoSwap (c : Fin 128) (t : Fin 8) (g : Guard) (w32 : Bool) (gd ga gb : Fin 32)
  /-- `AMO_ADD` (R214): atomic add; `w32` is FN[6]. -/
  | amoAdd (c : Fin 128) (t : Fin 8) (g : Guard) (w32 : Bool) (gd ga gb : Fin 32)
  /-- `AMO_AND` (R214): atomic and; `w32` is FN[6]. -/
  | amoAnd (c : Fin 128) (t : Fin 8) (g : Guard) (w32 : Bool) (gd ga gb : Fin 32)
  /-- `AMO_OR` (R214): atomic or; `w32` is FN[6]. -/
  | amoOr (c : Fin 128) (t : Fin 8) (g : Guard) (w32 : Bool) (gd ga gb : Fin 32)
  /-- `AMO_XOR` (R214): atomic exclusive or; `w32` is FN[6]. -/
  | amoXor (c : Fin 128) (t : Fin 8) (g : Guard) (w32 : Bool) (gd ga gb : Fin 32)
  /-- `AMO_MAXU` (R214): atomic unsigned maximum; `w32` is FN[6]. -/
  | amoMaxu (c : Fin 128) (t : Fin 8) (g : Guard) (w32 : Bool) (gd ga gb : Fin 32)
  /-- `AMO_MINU` (R214): atomic unsigned minimum; `w32` is FN[6]. -/
  | amoMinu (c : Fin 128) (t : Fin 8) (g : Guard) (w32 : Bool) (gd ga gb : Fin 32)
  /-- `AMO_MAX` (R214): atomic signed maximum; `w32` is FN[6]. -/
  | amoMax (c : Fin 128) (t : Fin 8) (g : Guard) (w32 : Bool) (gd ga gb : Fin 32)
  /-- `AMO_MIN` (R214): atomic signed minimum; `w32` is FN[6]. -/
  | amoMin (c : Fin 128) (t : Fin 8) (g : Guard) (w32 : Bool) (gd ga gb : Fin 32)
  /-- `AMO_CAS` (R214): atomic compare and swap; `w32` is FN[6]. -/
  | amoCas (c : Fin 128) (t : Fin 8) (g : Guard) (w32 : Bool) (gd ga gb : Fin 32)
  /-- `FENCE_P` (R206): FENCE of kind P. -/
  | fenceP (c : Fin 128) (t : Fin 8) (g : Guard)
  /-- `FENCE_M` (R206): FENCE of kind M. -/
  | fenceM (c : Fin 128) (t : Fin 8) (g : Guard)
  /-- `FENCE_T` (R206): FENCE of kind T. -/
  | fenceT (c : Fin 128) (t : Fin 8) (g : Guard)
  /-- `FENCE_I` (R206): FENCE of kind I. -/
  | fenceI (c : Fin 128) (t : Fin 8) (g : Guard)
  /-- `BRL` (R211): branches relative and links. -/
  | brl (c : Fin 128) (t : Fin 8) (g : Guard) (gd : Fin 32) (off : BitVec 17)
  /-- `JR` (R211): jumps to a register and links. -/
  | jr (c : Fin 128) (t : Fin 8) (g : Guard) (gd ga : Fin 32) (fn : BitVec 7)
  /-- `TCMD` (R215): issues the descriptor at ga. -/
  | tcmd (c : Fin 128) (t : Fin 8) (g : Guard) (gd ga : Fin 32) (imm : BitVec 12)
  /-- `TWAIT` (R218): returns the retire word of tag ga. -/
  | twait (c : Fin 128) (t : Fin 8) (g : Guard) (gd ga : Fin 32) (imm : BitVec 12)
  /-- `RDSUM` (R219): returns a summary slot. -/
  | rdsum (c : Fin 128) (t : Fin 8) (g : Guard) (gd : Fin 32) (imm : BitVec 12)
  /-- `RDFLG` (R220): returns and clears a flag set. -/
  | rdflg (c : Fin 128) (t : Fin 8) (g : Guard) (gd : Fin 32) (imm : BitVec 12)
  /-- `MFS` (R221): returns a state word. -/
  | mfs (c : Fin 128) (t : Fin 8) (g : Guard) (gd : Fin 32) (imm : BitVec 12)
  /-- `PAUSE` (R211): waits ga + imm cycles. -/
  | pause (c : Fin 128) (t : Fin 8) (g : Guard) (ga : Fin 32) (imm : BitVec 12)
  /-- `WTICK` (R222): waits until the turn number reaches ga. -/
  | wtick (c : Fin 128) (t : Fin 8) (g : Guard) (ga : Fin 32)
  /-- `TRAP` (R223): raises TRAP with a code. -/
  | trap (c : Fin 128) (t : Fin 8) (g : Guard) (imm : BitVec 12)
  /-- `HALT` (R200): puts the thread in HALTED. -/
  | halt (c : Fin 128) (t : Fin 8) (g : Guard)
  /-- `THREAD_RUN` (R226): a write of 1 to THR_CTL.RUN of thread `t` in the window of physical core `q`. -/
  | threadRun (r : Requester) (q : Fin 136) (t : Fin 8)
  /-- `THREAD_STOP` (R224): a write of 0 to THR_CTL.RUN. -/
  | threadStop (r : Requester) (q : Fin 136) (t : Fin 8)
  /-- `CODE_INV` (R225): a write of 1 to CCR_CTL.CODE_INV in the window of physical core `q`. -/
  | codeInv (r : Requester) (q : Fin 136)
  /-- `CODE_INV_DONE` (R225): the code invalidation of physical core `q` completes. -/
  | codeInvDone (q : Fin 136)
  /-- `RING_ARM` (R282): a write of ARM to ring record `r`. -/
  | ringArm (w : Writer) (r : Fin 16)
  /-- `RING_ABORT` (R289): a write of ABORT to ring record `r`. -/
  | ringAbort (w : Writer) (r : Fin 16)
  /-- `HOP_START` (R284): the next hop of ring `r` starts. -/
  | hopStart (r : Fin 16)
  /-- `RING_STALL` (R289): ring `r` has had no arrival and no credit for STALL turns. -/
  | ringStall (r : Fin 16)
  /-- `RING` (R287): the Revolve fragment at the head of VC `vc` of port `p`. -/
  | ring (p : Fin 6) (vc : Fin 4)
  /-- `CREDIT` (R285): the Revolve credit at the head of VC `vc` of port `p`. -/
  | credit (p : Fin 6) (vc : Fin 4)
  /-- `POOL_ENABLE` (R299): a write of `v` with ENABLE 1 to word 0 of pool record `p`. -/
  | poolEnable (w : Writer) (p : Fin 16) (v : Word)
  /-- `KICK` (R309): a write of KICK = 1 to pool record `p`. -/
  | kick (w : Writer) (p : Fin 16)
  /-- `LOOKUP` (R307): the page engine takes the next request of pool `p`, a LOOKUP. -/
  | lookup (p : Fin 16)
  /-- `ATTACH` (R310): the next request of pool `p`, an ATTACH. -/
  | attach (p : Fin 16)
  /-- `INSERT` (R308): the next request of pool `p`, an INSERT. -/
  | insert (p : Fin 16)
  /-- `RELEASE` (R310): the next request of pool `p`, a RELEASE. -/
  | release (p : Fin 16)
  /-- `PIN` (R310): the next request of pool `p`, a PIN. -/
  | pin (p : Fin 16)
  /-- `UNPIN` (R310): the next request of pool `p`, an UNPIN. -/
  | unpin (p : Fin 16)
  /-- `PREFETCH` (R313): the next request of pool `p`, a PREFETCH. -/
  | prefetch (p : Fin 16)
  /-- `FLUSH` (R310): the next request of pool `p`, a FLUSH. -/
  | flush (p : Fin 16)
  /-- `SPILL_COMPLETE` (R301): the tier confirms the spill copy of page `page` of pool `p`. -/
  | spillComplete (p : Fin 16) (page : BitVec 22)
  /-- `RETURN_COMPLETE` (R301): the return copy of page `page` of pool `p` completes. -/
  | returnComplete (p : Fin 16) (page : BitVec 22)
  /-- `GROUP_ENABLE` (R321): a write of `v` with ENABLE set to word 0 of group record `g`. -/
  | groupEnable (w : Writer) (g : Fin 64) (v : Word)
  /-- `GROUP_DISABLE` (R328): a write of `v` with ENABLE clear. -/
  | groupDisable (w : Writer) (g : Fin 64) (v : Word)
  /-- `GROUP_ARM` (R337): a write of `v` with ENABLE and ARM set. -/
  | groupArm (w : Writer) (g : Fin 64) (v : Word)
  /-- `GROUP_DISARM` (R320): a write of `v` with ENABLE set and ARM clear. -/
  | groupDisarm (w : Writer) (g : Fin 64) (v : Word)
  /-- `GROUP_ABORT` (R328): a write of `v` with ENABLE and ABORT set. -/
  | groupAbort (w : Writer) (g : Fin 64) (v : Word)
  /-- `SHARD_STALL` (R328): no message that an instance of group `g` expects has arrived for STALL turns. -/
  | shardStall (g : Fin 64) (inst : Fin 1024)
  /-- `NEXT_EPOCH_HOLD_EXPIRY` (R340): messages of the next epoch of group `g` have been held for 2 turns. -/
  | nextEpochHoldExpiry (g : Fin 64)
  /-- `HBM_REQUEST_SERVE` (R363): bank `bank` of pseudo-channel `pc` serves a request, on whose way `errs` occur. -/
  | hbmRequestServe (pc : Fin 1024) (bank : Fin 32) (errs : ServeErrs)
  /-- `SCRUB_READ` (R351): the scrub reads its next block, `errs` being the symbols returned wrong. -/
  | scrubRead (errs : List (Fin 68))
  /-- `LINE_SPARE_TRAINED` (R353): training of the spare line of pseudo-channel `pc` ends. -/
  | lineSpareTrained (pc : Fin 1024)
  /-- `REGION_ENABLE` (R380): a write of 1 to ENABLE of tracked region `i` by writer `w`. -/
  | regionEnable (w : Writer) (i : Fin 4096)
  /-- `LINK_ENABLE` (R409): a write of `v` with ENABLE 1 to LNK_CTL of port `p`. -/
  | linkEnable (r : Requester) (p : Fin 6) (v : Word)
  /-- `LINK_DISABLE` (R425): a write of `v` with ENABLE 0 to LNK_CTL of port `p`. -/
  | linkDisable (r : Requester) (p : Fin 6) (v : Word)
  /-- `RETRAIN` (R411): a write of RETRAIN = 1 to LNK_CTL of port `p`. -/
  | retrain (r : Requester) (p : Fin 6)
  /-- `FORCE_DOWN` (R410): a write of FORCE_DOWN = 1 to LNK_CTL of port `p`. -/
  | forceDown (r : Requester) (p : Fin 6)
  /-- `CALIBRATION_COMPLETE` (R412): steps 1 and 2 end, passed or failed. -/
  | calibrationComplete (p : Fin 6) (ok : Bool)
  /-- `PARTNER_LOCK` (R409): the partner's pattern is locked on `lanes` lanes. -/
  | partnerLock (p : Fin 6) (lanes : Fin 53)
  /-- `TRAINING_COMPLETE` (R412): training ends. `screen` and `peerFailed` are the lanes that fail the screens of both ends,
  `info` is PORT_INFO's SENDER, `sizes` its four SIZE fields, `peerGen` LANE_SWAP's GEN, `delay` the mean of the 64 delay measurements; `full` is
  whether steps 4 to 7 were run. -/
  | trainingComplete (p : Fin 6) (ok full : Bool) (screen peerFailed : BitVec 52) (info : BitVec 23) (sizes : BitVec 60) (peerGen : BitVec 4) (delay : Word)
  /-- `FRAME_RECEIVE` (R401): a frame arrives: frame control, the flits of its slots, and the symbols in error, as
  (codeword, symbol j of it). -/
  | frameReceive (p : Fin 6) (ctl : BitVec 120) (flits : List (BitVec 2048)) (errs : List (Fin 6 × Fin 544))
  /-- `HEARTBEAT_MISS` (R407): 1,000 ns pass on port `p` without an accepted heartbeat. -/
  | heartbeatMiss (p : Fin 6)
  /-- `RETRY_TIMEOUT` (R402): the oldest unacknowledged flit's latest transmission is 2,000 ns old. -/
  | retryTimeout (p : Fin 6)
  /-- `HOLDOFF_EXPIRY` (R411): HOLDOFF milliseconds pass in DOWN. -/
  | holdoffExpiry (p : Fin 6)
  /-- `LANE_LOCK_LOSS` (R415): receive lane `lane` loses lock for 100 ns. -/
  | laneLockLoss (p : Fin 6) (lane : Fin 52)
  /-- `LANE_ERROR_WINDOW` (R415): a 1 ms window of the corrected-symbol counts ends. -/
  | laneErrorWindow (p : Fin 6)
  /-- `MSG_ENABLE` (R431): a Joinery write of byte 0 of the message control record. -/
  | msgEnable (w : Writer) (v : Byte)
  /-- `WINDOW_ENABLE` (R446): a write of `v` to the first word of write window `n`. -/
  | windowEnable (w : Writer) (n : Fin 64) (v : Word)
  /-- `TRANSIT_FORWARD` (R433): the transit fragment at the head of VC `vc` of port `p` is forwarded or discarded. -/
  | transitForward (p : Fin 6) (vc : Fin 4)
  /-- `WRITE` (R446): the WRITE fragment at the head of VC `vc` of port `p` is checked and written. -/
  | write (p : Fin 6) (vc : Fin 4)
  /-- `GATHER` (R453): the gather fragment at the head of VC `vc` of port `p` is converted and written, or captured. -/
  | gather (p : Fin 6) (vc : Fin 4)
  /-- `TREE` (R326): the module-tree fragment at the head of VC `vc` of port `p` is matched, held or discarded. -/
  | tree (p : Fin 6) (vc : Fin 4)
  /-- `DONE` (R444): the DONE at the head of VC `vc` of port `p`. -/
  | done (p : Fin 6) (vc : Fin 4)
  /-- `UNREACH` (R445): the UNREACH at the head of VC `vc` of port `p`. -/
  | unreach (p : Fin 6) (vc : Fin 4)
  /-- `CONFIRM` (R451): the CONFIRM at the head of VC `vc` of port `p`. -/
  | confirm (p : Fin 6) (vc : Fin 4)
  /-- `RETRACT` (R451): the RETRACT at the head of VC `vc` of port `p`. -/
  | retract (p : Fin 6) (vc : Fin 4)
  /-- `READ` (R437): the READ at the head of VC `vc` of port `p` is checked and answered. -/
  | read (p : Fin 6) (vc : Fin 4)
  /-- `REASSEMBLY_STALL` (R449): the context of message `mtag` of source `src` has got no fragment for 64 turns. -/
  | reassemblyStall (src : Fin 1048576) (mtag : Fin 65536)
  /-- `TOMBSTONE_EXPIRY` (R449): the 128 turns of the tombstone of message `mtag` of source `src` end. -/
  | tombstoneExpiry (src : Fin 1048576) (mtag : Fin 65536)
  /-- `MSG_TIMEOUT` (R445): message `mtag` of this module has no DONE or UNREACH 66 turns after its last fragment's send. -/
  | msgTimeout (mtag : Fin 65536)
  /-- `PROV_EXPIRED` (R451): the provisional message `mtag` of source `src` is neither confirmed nor retracted in time. -/
  | provExpired (src : Fin 1048576) (mtag : Fin 65536)
  /-- `SQ_TAIL` (R471): a submission doorbell write of `v` to queue `q` through port `p`. -/
  | sqTail (p : Fin 2) (q : Fin 16384) (v : Word)
  /-- `CQ_HEAD` (R471): a completion doorbell write of `v` to queue `q` through port `p`. -/
  | cqHead (p : Fin 2) (q : Fin 16384) (v : Word)
  /-- `QUEUE_ENABLE` (R474): a write of `v` with ENABLE 1 to HQ_CTL of queue `q`. -/
  | queueEnable (r : Requester) (q : Fin 16384) (v : Word)
  /-- `QUEUE_DISABLE` (R473): a write of `v` with ENABLE 0 to HQ_CTL of queue `q`. -/
  | queueDisable (r : Requester) (q : Fin 16384) (v : Word)
  /-- `COALESCE_TIMEOUT` (R479): COAL_TIME of queue `q` passes since its first uncovered requesting record. -/
  | coalesceTimeout (q : Fin 16384)
  /-- `MSIX_VECTOR_UNMASK` (R643): the mask of vector `v` of port `p` (`none`: the Function Mask) is cleared. -/
  | msixVectorUnmask (p : Fin 2) (v : Option (Fin 2048))
  /-- `MSIX_ROUTE_WRITE` (R645): a write of `v` to MSX_ROUTE[`k`]. -/
  | msixRouteWrite (r : Requester) (k : Fin 144) (v : Word)
  /-- `HOST_PORT_RESET` (R466): a hot reset or link loss of port `p`. -/
  | hostPortReset (p : Fin 2)
  /-- `FUNCTION_LEVEL_RESET` (R466): a Function Level Reset of port `p`. -/
  | functionLevelReset (p : Fin 2)
  /-- `D3HOT_ENTRY` (R458): a move of port `p` to D3hot. -/
  | d3hotEntry (p : Fin 2)
  /-- `PERST_N` (R651): a fundamental reset of port `p`. -/
  | perstN (p : Fin 2)
  /-- `CONFIGURATION_REQUEST` (R465): a configuration read (`wr = none`) or write of the field `reg` of port `p`. -/
  | configurationRequest (p : Fin 2) (reg : CfgReg) (wr : Option Word)
  /-- `BAR2_READ` (R463): a read of `len` + 1 bytes at offset `off` of BAR2. -/
  | bar2Read (p : Fin 2) (off : BitVec 40) (len : Fin 4096)
  /-- `BAR2_WRITE` (R463): a write through BAR2; a byte that is `none` is not enabled. -/
  | bar2Write (p : Fin 2) (off : BitVec 40) (data : List (Option Byte))
  /-- `BAR2_ATOMIC` (R458): an AtomicOp on a BAR2 address with operand `a` (for CAS: compare `a`, swap `b`). -/
  | bar2Atomic (p : Fin 2) (off : BitVec 40) (op : PcieAtomic) (w64 : Bool) (a b : Dword)
  /-- `ACTIVATE` (R489): requester `r` writes SEQ_CMD with OP 1 for entry `i`. -/
  | activate (r : Requester) (i : Fin 262144)
  /-- `RETIRE` (R489): requester `r` writes SEQ_CMD with OP 2 for entry `i`. -/
  | retire (r : Requester) (i : Fin 262144)
  /-- `TOKENS_WRITE` (R492): a write of `v` to TOKENS of entry `i`. -/
  | tokensWrite (w : Writer) (i : Fin 262144) (v : Word)
  /-- `STEP_CORE_ASSIGN` (R494): the listed step of sequence `i` is given its cores. -/
  | stepCoreAssign (i : Fin 262144)
  /-- `PREEMPT_SAVE` (R499): the engines of the resident of logical core `c` have stopped, and its save begins. -/
  | preemptSave (c : Fin 128)
  /-- `SAVE_COMPLETE` (R499): the save of logical core `c` is complete. -/
  | saveComplete (c : Fin 128)
  /-- `RESTORE` (R503): logical core `c` starts to restore its saved resident. -/
  | restore (c : Fin 128)
  /-- `RESTORE_COMPLETE` (R503): the restore of logical core `c` is complete. -/
  | restoreComplete (c : Fin 128)
  /-- `STEP_COMPLETE` (R496): the step of sequence `i` has halted and its commands have retired. -/
  | stepComplete (i : Fin 262144)
  /-- `SILL_CROSSING` (R514): the retired command of identity `id` crosses the Sill. -/
  | sillCrossing (id : Nat)
  /-- `REPLAY_START` (R519): the spare of panel `panel` starts the oldest replay that waits. -/
  | replayStart (panel : Fin 8)
  /-- `REPLAY_COMPLETE` (R521): the replay of panel `panel` is carried out; `err` is an error of the array in it; the replay of a
  sampled command matches the duplicate (`dup`), the original (`orig`), or neither (R525). -/
  | replayComplete (panel : Fin 8) (err : Option ArrayErr) (dup orig : Bool)
  /-- `DUPLICATE_COMPARE` (R525): the signatures of the sampled command of panel `panel` are compared; `same`: they agree. -/
  | duplicateCompare (panel : Fin 8) (same : Bool)
  /-- `SILL_WAIT` (R528): the running SILL WAIT of tag `tag` finishes once every earlier command of its context has crossed. -/
  | sillWait (c : Fin 128) (tag : Fin 4096)
  /-- `SILL_STEP` (R531): the running SILL STEP of tag `tag` enters COLLECT. -/
  | sillStep (c : Fin 128) (tag : Fin 4096)
  /-- `READY` (R531): the READY at the head of VC `vc` of port `p`. -/
  | ready (p : Fin 6) (vc : Fin 4)
  /-- `COMMIT` (R532): the COMMIT at the head of VC `vc` of port `p`. -/
  | commit (p : Fin 6) (vc : Fin 4)
  /-- `STEP_CHILD_TIMEOUT` (R533): step record `j` has waited TIMEOUT turns for a child. -/
  | stepChildTimeout (j : Fin 16)
  /-- `STEP_COMMIT_TIMEOUT` (R533): step record `j` has been in SENT for TIMEOUT turns. -/
  | stepCommitTimeout (j : Fin 16)
  /-- `RESOLVE` (R534): a write of `v` to word 0 of step record `j`. -/
  | resolve (w : Writer) (j : Fin 16) (v : Word)
  /-- `ROLLING_TEST_START` (R536): panel `panel` takes its next core to be tested. -/
  | rollingTestStart (panel : Fin 8)
  /-- `ROLLING_TEST_COMPLETE` (R536): the self-test of panel `panel` ends. -/
  | rollingTestComplete (panel : Fin 8) (pass : Bool)
  /-- `TEST_REQUEST` (R537): a write of `v` to SIL_TEST_REQ of panel `panel`. -/
  | testRequest (r : Requester) (panel : Fin 8) (v : Word)
  /-- `SHUTTER_ENABLE` (R550): a write of `v` with ENABLE set to word 0 of Shutter record `i`. -/
  | shutterEnable (w : Writer) (i : Fin 4) (v : Word)
  /-- `SHUTTER_DISABLE` (R550): a write of `v` with ENABLE clear. -/
  | shutterDisable (w : Writer) (i : Fin 4) (v : Word)
  /-- `BEGIN` (R552): the running SHUT BEGIN of tag `tag` decides whether this step takes a snapshot. -/
  | begin_ (c : Fin 128) (tag : Fin 4096)
  /-- `CAPTURE` (R553): the running SHUT CAPTURE of tag `tag` names the gather instance that is kept. -/
  | capture (c : Fin 128) (tag : Fin 4096)
  /-- `SEND` (R554): the running SHUT SEND of tag `tag` sends moments and auxiliary range to the keeper. -/
  | send_ (c : Fin 128) (tag : Fin 4096)
  /-- `SERVE` (R560): the running SHUT SERVE of tag `tag` sends a bank to a module. -/
  | serve (c : Fin 128) (tag : Fin 4096)
  /-- `STREAM` (R561): the running SHUT STREAM of tag `tag` writes a bank to host memory through H1. -/
  | stream (c : Fin 128) (tag : Fin 4096)
  /-- `INPUT_GOOD` (R649): input good, with H0_REFCLK and SB_REFCLK present or not; `as` says how the start attempts that follow go, as far as it goes. -/
  | inputGood (h0Ref sbRef : Bool) (as : List Attempt)
  /-- `PWR_EN_LOW` (R650): PWR_EN stays low for 100 µs. -/
  | pwrEnLow
  /-- `INPUT_UNDERVOLTAGE` (R650): the input stays below 46 V for more than 1 ms. -/
  | inputUndervoltage
  /-- `MOD_RESET_PULSE` (R565): a low pulse of 100 µs or more on MOD_RESET_N. -/
  | modResetPulse (as : List Attempt)
  /-- `START_STEP_TIMEOUT` (R567): the step in progress runs past its maximum time. -/
  | startStepTimeout (as : List Attempt)
  /-- `COLD_RETRY_DELAY` (R577): die power has been off for 500 ms. -/
  | coldRetryDelay (as : List Attempt)
  /-- `WARM_RESTART_REQUEST` (R565): a write of `c` to STR_RESTART_C that completes a pair with KIND 1. -/
  | warmRestartRequest (r : Requester) (c : Word) (as : List Attempt)
  /-- `COLD_RESTART_REQUEST` (R565): a write of `c` to STR_RESTART_C that completes a pair with KIND 2. -/
  | coldRestartRequest (r : Requester) (c : Word) (as : List Attempt)
  /-- `LOAD_JOINERY_IMAGE` (R580): a write of OP 1 to REC_CMD through port `p`. -/
  | loadJoineryImage (p : Fin 2)
  /-- `LOAD_CONFIGURATION_RECORD` (R598): a write of OP 2 to REC_CMD through port `p`. -/
  | loadConfigurationRecord (p : Fin 2)
  /-- `REC_COLD_START` (R581): a write of OP 3 to REC_CMD through port `p`. -/
  | recColdStart (p : Fin 2) (as : List Attempt)
  /-- `MBX_GO` (R603): a write of GO to mailbox `k`. -/
  | mbxGo (r : Requester) (k : Fin 3)
  /-- `MBX_ACK` (R603): a write of ACK to mailbox `k`. -/
  | mbxAck (r : Requester) (k : Fin 3)
  /-- `REPORT` (R601): Tumbler serves the REPORT request in mailbox 0. -/
  | report
  /-- `REPAIR` (R597): Tumbler serves the REPAIR request in mailbox 0; `flashOk`: the flash writes succeed. -/
  | repair (flashOk : Bool)
  /-- `STAGE_IMAGE` (R604): Tumbler serves the STAGE_IMAGE request in mailbox 0; `flashOk`: the flash writes succeed; `cut`: pass
  2 or 3 is still under way. -/
  | stageImage (flashOk cut : Bool)
  /-- `GET_CERT` (R604): Tumbler serves the GET_CERT request in mailbox 0. -/
  | getCert
  /-- `GET_VERSION` (R599) on channel `c`: 0 the DOE of H0, 1 the DOE of H1, 2 I3C, 3 and 4 the MCTP endpoints of H0 and H1. -/
  | getVersion (c : Fin 5)
  /-- `GET_CAPABILITIES` (R599) -/
  | getCapabilities (c : Fin 5)
  /-- `NEGOTIATE_ALGORITHMS` (R599) -/
  | negotiateAlgorithms (c : Fin 5)
  /-- `GET_DIGESTS` (R599) -/
  | getDigests (c : Fin 5)
  /-- `GET_CERTIFICATE` (R599): `len` bytes from `off` of a slot's chain. -/
  | getCertificate (c : Fin 5) (slot : Fin 8) (off len : BitVec 16)
  /-- `CHALLENGE` (R599) -/
  | challenge (c : Fin 5) (slot : Fin 8) (nonce : BitVec 256)
  /-- `GET_MEASUREMENTS` (R600): block `index`, or all with 0xFF. -/
  | getMeasurements (c : Fin 5) (index : Byte) (signed : Bool) (nonce : BitVec 256)
  /-- `SPDM_UNSUPPORTED` (R599): any other request. -/
  | spdmUnsupported (c : Fin 5) (code : Byte)
  /-- `SET_ENDPOINT_ID` (R607) on binding `b`: 0 I3C, 1 H0, 2 H1. -/
  | setEndpointId (b : Fin 3) (eid : Byte)
  /-- `ENTDAA` (R608): the I3C controller assigns a dynamic address. -/
  | entdaa (addr : BitVec 7)
  /-- `SETDASA` (R608): the I3C controller assigns a dynamic address to a static address. -/
  | setdasa (static addr : BitVec 7)
  /-- `GET_TID` (R611) on channel `c`: 0 I3C, 1 and 2 the MCTP endpoints of H0 and H1, 3 and 4 mailboxes 1 and 2. -/
  | getTid (c : Fin 5)
  /-- `SET_TID` (R611) -/
  | setTid (c : Fin 5) (tid : Byte)
  /-- `GET_PLDM_VERSION` (R611) -/
  | getPldmVersion (c : Fin 5) (type : Byte)
  /-- `GET_PLDM_TYPES` (R611) -/
  | getPldmTypes (c : Fin 5)
  /-- `GET_PLDM_COMMANDS` (R611) -/
  | getPldmCommands (c : Fin 5) (type : Byte)
  /-- `GET_PDR` (R611) -/
  | getPdr (c : Fin 5) (handle : Word)
  /-- `GET_PDR_REPOSITORY_INFO` (R611) -/
  | getPdrRepositoryInfo (c : Fin 5)
  /-- `GET_SENSOR_READING` (R612) -/
  | getSensorReading (c : Fin 5) (sensor : BitVec 16)
  /-- `GET_STATE_SENSOR_READINGS` (R612) -/
  | getStateSensorReadings (c : Fin 5) (sensor : BitVec 16)
  /-- `GET_SENSOR_THRESHOLDS` (R612) -/
  | getSensorThresholds (c : Fin 5) (sensor : BitVec 16)
  /-- `SET_SENSOR_THRESHOLDS` (R612): (level 0 warning, 1 critical, 2 fatal; upper side; value × 16). -/
  | setSensorThresholds (c : Fin 5) (sensor : BitVec 16) (set : List (Fin 3 × Bool × BitVec 20))
  /-- `SET_EVENT_RECEIVER` (R622): events are enabled or disabled for the requester's endpoint. -/
  | setEventReceiver (c : Fin 5) (enable : Bool)
  /-- `PLDM_FIRMWARE_UPDATE` (R611) -/
  | pldmFirmwareUpdate (c : Fin 5) (op : FwOp)
  /-- `PLDM_UNSUPPORTED` (R611): any other PLDM command. -/
  | pldmUnsupported (c : Fin 5) (type cmd : Byte)
  /-- `SENSOR_UPDATE` (R613): sensor `id` + 1 reads `v` (signed, × 16). -/
  | sensorUpdate (id : Fin 28) (v : BitVec 20)
  /-- `DUTY_STEP` (R614): a 1 ms step down while throttling persists, or a 10 ms step up after it cleared. -/
  | dutyStep (p : Fin 8)
  /-- `FAULT_COPY_TO_FLASH` (R621): Joinery copies the oldest entry not yet copied to the flash ring. -/
  | faultCopyToFlash
  /-- `FLT_CLEAR_PAIR` (R620): a write of `c` to FLT_CLEAR_C. -/
  | fltClearPair (r : Requester) (c : Word)
  /-- `LATCH_STROBE` (R632): a write of mask `m` to LCH_STROBE. -/
  | latchStrobe (r : Requester) (m : BitVec 16)
  /-- `LATCH_TICK_ARM` (R633): a write of mask `m` to LCH_TICK. -/
  | latchTickArm (r : Requester) (m : BitVec 16)
  /-- `DEADBOLT_VALUE_WRITE` (R635): a write of `v` to the value half of DB register `reg`. -/
  | deadboltValueWrite (r : Requester) (reg : DbReg) (v : Word)
  /-- `DEADBOLT_LATE` (R636): 256 cycles pass after the value half without its complement. -/
  | deadboltLate
  /-- `TRN_PERIOD_PAIR` (R23): a write of `c` to the complement half TRN_PERIOD_C. -/
  | trnPeriodPair (r : Requester) (c : Word)
  /-- `MEM_PART_OWN_PAIR` (R357): a write of `c` to MEM_PART_OWN_C[`p`]. -/
  | memPartOwnPair (r : Requester) (p : Fin 16) (c : Word)
  /-- `MEM_RANGE_PAIR` (R357): a write of `c` to MEM_RANGE_C[`j`]. -/
  | memRangePair (r : Requester) (j : Fin 192) (c : Word)
  /-- `HQ_OWN_PAIR` (R467): a write of `c` to HQ_OWN_C of queue 256`g`. -/
  | hqOwnPair (r : Requester) (g : Fin 64) (c : Word)
  /-- `LCH_OWN_PAIR` (R641): a write of `c` to LCH_OWN_C. -/
  | lchOwnPair (r : Requester) (c : Word)
  /-- `SEC_LOCK_PAIR` (R602): a write of `c` to SEC_LOCK_C. -/
  | secLockPair (r : Requester) (c : Word)
  /-- `REGISTER_WRITE` (R627): a 4-byte write of `v` to BAR0 offset `off`. -/
  | registerWrite (r : Requester) (off : BitVec 26) (v : Word)
  /-- `RC_READ` (R628): a 4-byte read of BAR0 offset `off`, which clears its RC fields. -/
  | rcRead (r : Requester) (off : BitVec 26)
  /-- `LO_CAPTURE_READ` (R21): a 4-byte read of BAR0 offset `off`, which captures the high half of a low half. -/
  | loCaptureRead (r : Requester) (off : BitVec 26)
  /-- `REFCLOCK_LOSS` (R654): H0_REFCLK (`sb` false) or SB_REFCLK is lost. -/
  | refclockLoss (sb : Bool)
  /-- `REFCLOCK_RETURN` (R654): H0_REFCLK or SB_REFCLK returns. -/
  | refclockReturn (sb : Bool)
  /-- `FRAME_TRANSMIT` (R400): the transmitter of port `p` fills the 15 slots of a frame. -/
  | frameTransmit (p : Fin 6)
  /-- `PAUSE_EXPIRY` (R200): the cycles of a PAUSE have passed. -/
  | pauseExpiry (c : Fin 128) (t : Fin 8)
  /-- `STORE_REACHES_PANEL_CACHE` (R204): the oldest pending store of thread `t` of core `c` reaches the panel cache. -/
  | storeReachesPanelCache (c : Fin 128) (t : Fin 8)
  /-- `HOST_DMA_COMPLETION` (R385): the host DMA read under `tag` completes with a status, and with its data. -/
  | hostDmaCompletion (tag : Nat) (status : CplStatus) (data : List Byte)
  /-- `COMPLETION_TIMEOUT` (R475): the host DMA read under `tag` receives no completion in time. -/
  | completionTimeout (tag : Nat)
  /-- `MCTP_TYPE_UNSUPPORTED` (R607): a message of a type other than control, PLDM or SPDM. -/
  | mctpTypeUnsupported (b : Fin 3) (type : Byte)
  deriving DecidableEq, Repr

end Sys2Proof
end

