-- ==== Sys2Proof/Config.lean ====
section
/-!
DEFINITION. Config.lean: what the spec leaves open. Each constant has no body: nothing can evaluate it, so a claim
that holds for it holds for every value (notes/assumptions/5.md and the rows that name each constant).
-/
namespace Sys2Proof.Config

/-- Draw number `n` of a value that the spec does not state, `w` bits wide. -/
opaque freeValue (w n : Nat) : BitVec w

/-- Draw number `n` of a list of `len` bytes whose contents the spec does not state. -/
opaque freeByte (n i : Nat) : Byte

/-- The storage bit that flips, if one does, in the core cycle of draw number `n` (R150, R190, R208, R372). -/
opaque upset (n : Nat) : Upset

/-- A signature over a digest by one of the module's keys: the bytes R and S of ECDSA P-521, 132 bytes (R591, R601).
`n` counts draws: the algorithm takes a random number that the spec does not state. -/
opaque signature (key n : Nat) (digest : List Byte) (i : Nat) : Byte

/-- Whether the signature `sig` over the digest verifies under key `key` (R592, R596). -/
opaque verifies (key : Nat) (digest sig : List Byte) : Bool

/-- The hash that summarises a command's signature for duplicates (R524): its function is not stated. -/
opaque hash64 (data : List Nat) : Nat

/-- How start attempt number `n` goes, where the command that starts it does not say (R567, R568, R573). -/
opaque freeAttempt (n : Nat) : Attempt

/-! Module flash and boot ROM as manufactured (R589, R592, R600): their contents are not in the spec. -/

/-- The Joinery image slot, and the configuration record, as manufactured. -/
opaque flashImage : List Byte
opaque flashConfig : List Byte

/-- The certificate chain: certificate `k`, root first; and the SHA-512 digest of the root that the boot ROM holds. -/
opaque certBytes (k : Nat) : List Byte
opaque certCount : Nat
opaque rootDigest : List Byte

/-- Whether certificate `k` chains to the root and carries the firmware-signing usage (R594), and the key it certifies. -/
opaque certOk (k : Nat) : Bool
opaque certKey (k : Nat) : Nat

/-- SHA-512 of the boot ROM (R600). -/
opaque romDigest : List Byte

/-- The 32 bytes of the secret that the PUF gives (R590), and the manufacturing key. -/
opaque pufSecret : Nat → Byte
opaque mfgKey : Nat

/-- The bytes of T that one HMAC does not give, for an image digest and a record digest (R591): the rule names one message. -/
opaque attestTail (image config : List Byte) : Nat → Byte

/-- The public key of a key, and the certificate that Tumbler issues for an attestation key. -/
opaque publicKey (key : Nat) : List Byte
opaque attestCert (key : Nat) : List Byte

/-- The key that a public key stands for. -/
opaque keyOf (pub : List Byte) : Nat

/-! Bodies of the MFG and REPAIR sections, whose byte layout R595 does not give. -/

/-- Serial number byte `i`. -/
opaque mfgSerial (body : List Byte) (i : Nat) : Byte
/-- Spare position of panel `p`, and whether position `q` of it is marked failed. -/
opaque mfgSpare (body : List Byte) (p : Nat) : Fin 17
opaque mfgFailed (body : List Byte) (p q : Nat) : Bool
/-- Whether a line of a pseudo-channel is listed as failed. -/
opaque mfgLine (body : List Byte) (pc line : Nat) : Bool
/-- Failed-lane mask of port `p`: transmit, or receive. -/
opaque mfgLanes (body : List Byte) (rx : Bool) (p : Nat) : BitVec 52
/-- A REPAIR body: KIND; the core, or pseudo-channel and line, or port, direction and lane. -/
opaque repairKind (body : List Byte) : Nat
opaque repairCore (body : List Byte) : Fin 136
opaque repairLine (body : List Byte) : Fin 1024 × Fin 35
opaque repairLane (body : List Byte) : Fin 6 × Bool × Fin 52

end Sys2Proof.Config
end

