-- ==== Sys2Proof/Machine/RegMap.lean ====
section
/-!
DEFINITION. Machine/RegMap.lean: the map of BAR0 (R638, R639): where each block lies, what each register holds at
reset, and which of its bits are RW, LW and RC (R627). A bit in none of the three is RO, reserved, or has a
behaviour of its own in the file of its block.
-/
namespace Sys2Proof.Machine

/-- Bits of a register by access code (R627). -/
structure Acc where
  rw : Nat := 0
  lw : Nat := 0
  rc : Nat := 0
  deriving DecidableEq, Repr

/-- The window of physical core `i` (R639). -/
def coreWin (i : Nat) : Nat := 0x1000000 + 0x10000 * i

/-- Where the context of logical core `l` keeps the registers that every window shows for the logical core mapped to
it (R126, R225, R389): a key beyond BAR0, laid out as a window. -/
def ctxWin (l : Nat) : Nat := 0x8000000 + 0x10000 * l

/-- The registers of queue `q` (R483). -/
def hqBase (q : Nat) : Nat := 0x100000 + 0x40 * q

/-- The window of port L`k` (R425). -/
def lnkBase (k : Nat) : Nat := 0x400000 + 0x10000 * k

/-- The class registers of class `c` (R56). -/
def clsBase (c : Nat) : Nat := 0x10100 + 0x10 * c

/-- The regulator of partition `p` (R366). -/
def rglBase (p : Nat) : Nat := 0x300100 + 0x10 * p

namespace Reg
def glbTimeLo := 0x1C
def glbTimeHi := 0x20
def trnCtl := 0x10000
def trnStatus := 0x10004
def trnPeriod := 0x10008
def trnNumLo := 0x10010
def trnNumHi := 0x10014
def trnTickLo := 0x10018
def trnTickHi := 0x1001C
def trnStartLo := 0x10020
def trnStartHi := 0x10024
def trnSkew := 0x10028
def trnRefp := 0x1002C
def trnEvent := 0x10030
def trnIrqEn := 0x10034
def trnOvrCnt (c : Nat) := 0x10200 + 4 * c
def trnOvrWr := 0x10300
def lchStrobe := 0x20000
def lchPending := 0x20004
def lchTick := 0x20008
def lchFixgrp := 0x2000C
def lchOwn := 0x20010
def dbFailCount := 0x20018
def dbLast := 0x2001C
def lchIgnored := 0x20020
def memStatus := 0x300000
def memEvent := 0x300004
def memIrqEn := 0x300008
def memSched := 0x30000C
def memScrub := 0x300010
def memScrubPos := 0x300014
def memEccCnt := 0x300018
def memEccLo := 0x30001C
def memEccHi := 0x300020
def memEccInfo := 0x300024
def memStk (i : Nat) := 0x302000 + 0x40 * i
def memPc (c : Nat) := 0x304000 + 8 * c
def fltStatus := 0x500000
def fltEvent := 0x500004
def fltIrqEn := 0x500008
def fltHead := 0x50000C
def fltSeq := 0x500010
def fltOverflow := 0x50001C
def fltRepl := 0x500020
def fltThrCyc := 0x500024
def fltDuty (p : Nat) := 0x500040 + 4 * p
def fltSensor (i : Nat) := 0x500100 + 4 * i
def silCtl := 0x504000
def silStatus := 0x504004
def silEvent := 0x504008
def silIrqEn := 0x50400C
def silReplays := 0x504010
def silDups := 0x504014
def silDupMismatch := 0x504018
def silDupAbandon := 0x50401C
def silHold := 0x504020
def silTests := 0x504024
def silPanel (p : Nat) := 0x504100 + 0x10 * p
def silCoreChk (i : Nat) := 0x504200 + 4 * i
def shtEvent := 0x505800
def shtIrqEn := 0x505804
def secState := 0x600000
def secSvn := 0x600004
def secCfg := 0x600008
def secLock := 0x60000C
def secDenied := 0x600014
def mbx (k : Nat) := 0x601000 + 0x2000 * k
def strStatus := 0x60F000
def strEvent := 0x60F00C
def strTime (k : Nat) := 0x60F010 + 4 * k
def strTotal := 0x60F040
def strStarts := 0x60F044
def recAddrLo := 0x60F100
def recAddrHi := 0x60F104
def recLen := 0x60F108
def recCmd := 0x60F10C
def recStatus := 0x60F110
def seqCtl := 0x700000
def seqStatus := 0x700004
def seqEvent := 0x700008
def seqIrqEn := 0x70000C
def seqList := 0x700010
def seqBuild := 0x700014
def seqLiveMax := 0x700018
def seqSaveLo := 0x70001C
def seqSaveHi := 0x700020
def seqRptLost := 0x700024
def seqPreempts := 0x700028
def seqCmd (k : Nat) := 0x700100 + 0x10 * k
def seqRes (k : Nat) := 0x700104 + 0x10 * k
def seqPre (c : Nat) := 0x700400 + 8 * c
def msxRoute (k : Nat) := 0x220000 + 4 * k
end Reg

/-- 32 ones. -/
def ones : Nat := 0xFFFFFFFF

/-- Register `o` of a core window: reset 0 (R127 to R132, R161 to R165, R193 to R197, R225, R226, R389). -/
def coreAcc (o : Nat) : Acc :=
  if o < 0x100 then
    if o = 0x004 then { rc := 0x1FFFF } else if o = 0x00C then { rw := 0x1FFFF } else {}
  else if o < 0x300 then
    let r := o % 0x40
    if r = 0x04 then { rw := 0xFFFFFFFC } else if r = 0x08 then { rw := 0xFFFF } else if r = 0x20 then { rc := ones } else {}
  else if o < 0x1000 then {}
  else if o < 0x1100 then
    if o = 0x1004 then { rc := 0x1F } else if o = 0x100C then { rc := ones }
    else if 0x1014 ≤ o && o ≤ 0x1020 then { rc := ones } else {}
  else if o < 0x1200 then
    if o = 0x1104 then { rc := 0xF00 } else if o = 0x1110 || o = 0x1118 then { rc := ones } else {}
  else if o < 0x1300 then
    if o = 0x1204 then { rc := 0x3F } else if o = 0x1208 then { rc := ones }
    else if 0x1210 ≤ o && o ≤ 0x121C then { rc := ones } else {}
  else if o < 0x1400 then
    if o = 0x1300 then { rc := 0x1F } else if o = 0x1308 || o = 0x1310 || o = 0x1314 then { rc := ones } else {}
  else {}

/-- Access codes of the register at BAR0 offset `off` (R627 and the register tables of each chapter). -/
def regAcc (off : Nat) : Acc :=
  if off < 0x10000 then {}
  else if off < 0x20000 then
    let o := off - 0x10000
    if o = 0x00 then { rw := 0x003F073F, lw := 0x0F000000 }
    else if o = 0x20 then { rw := ones } else if o = 0x24 then { rw := 0xFFFF }
    else if o = 0x30 then { rc := 0x7FF } else if o = 0x34 then { rw := 0x7FF }
    else if 0x110 ≤ o && o < 0x200 then
      if o % 0x10 = 0 then { lw := 3 } else if o % 0x10 = 4 || o % 0x10 = 8 then { lw := ones } else {}
    else if 0x200 ≤ o && o < 0x240 then { rc := ones }
    else {}
  else if off < 0x30000 then
    let o := off - 0x20000
    if o = 0x0C then { rw := 0xFF } else if o = 0x18 || o = 0x20 then { rc := 0xFFFF } else {}
  else if off < 0x100000 then {}
  else if off < 0x200000 then
    let o := off % 0x40
    if o = 0x00 then { rw := 0xFFF0F, lw := 0xF0 } else if o = 0x04 then { rw := 0xFFF }
    else if o = 0x08 || o = 0x10 then { rw := 0xFFFFFFC0 } else if o = 0x0C || o = 0x14 then { rw := ones }
    else if o = 0x18 then { rw := 0xFFFF0FFF } else if o = 0x28 then { rc := 0xF }
    else if o = 0x2C || o = 0x30 || o = 0x34 then { rc := ones } else {}
  else if off < 0x220000 then
    let o := off % 0x10000
    if o < 0x8000 then
      if o % 0x10 = 0 then { rw := 0xFFFFFFFC } else if o % 0x10 = 0xC then { rw := 1 } else { rw := ones }
    else {}
  else if off < 0x300000 then (if off < 0x220240 then { rw := 0x1FFF } else {})
  else if off < 0x400000 then
    let o := off - 0x300000
    if o = 0x04 then { rc := 0x1FF } else if o = 0x08 then { rw := 0x1FF } else if o = 0x0C then { lw := 0xFFFF }
    else if o = 0x10 then { rw := 0x1FF } else if o = 0x18 then { rc := ones }
    else if 0x100 ≤ o && o < 0x200 then
      if o % 0x10 = 0 then { rw := 0xF0000, lw := 0x1FFF } else if o % 0x10 = 4 then { lw := 0xFFFF } else { rc := ones }
    else if 0x4000 ≤ o && o < 0x6000 then (if o % 8 = 4 then { rc := 0xFFFF } else {})
    else {}
  else if off < 0x460000 then
    let o := off % 0x10000
    if o = 0x00 then { rw := 0xFF0F } else if o = 0x08 then { rc := 0x1FF } else if o = 0x0C then { rw := 0x1FF }
    else if o = 0x1C then { rc := 0x1F } else if 0x20 ≤ o && o < 0x30 then { rw := 0x7FFF }
    else if o = 0x30 then { rw := 0xFFFFFF } else if 0x40 ≤ o && o ≤ 0x64 then { rc := ones }
    else if 0x200 ≤ o && o < 0x2D0 then { rc := ones } else {}
  else if off < 0x500000 then {}
  else if off < 0x600000 then
    let o := off - 0x500000
    if o = 0x04 then { rc := 0x3F } else if o = 0x08 then { rw := 0x3F } else if o = 0x1C || o = 0x24 then { rc := ones }
    else if o = 0x4000 then { rw := 0xFFFF } else if o = 0x4008 then { rc := 0xFF } else if o = 0x400C then { rw := 0xFF }
    else if 0x4010 ≤ o && o ≤ 0x4024 then { rc := ones }
    else if o = 0x5800 then { rc := 0xF } else if o = 0x5804 then { rw := 0xF } else {}
  else if off < 0x700000 then
    let o := off - 0x600000
    if o = 0x14 then { rc := ones }
    else if o = 0x1008 || o = 0x3008 || o = 0x5008 then { rw := 0x1FFF }
    else if (0x2000 ≤ o && o < 0x3000) || (0x4000 ≤ o && o < 0x5000) || (0x6000 ≤ o && o < 0x7000) then { rw := ones }
    else if o = 0xF00C then { rc := 0x1F }
    else if o = 0xF100 then { rw := 0xFFFFF000 } else if o = 0xF104 then { rw := ones } else if o = 0xF108 then { rw := 0x7FFFFFF }
    else {}
  else if off < 0x1000000 then
    let o := off - 0x700000
    if o = 0x00 then { rw := 3 } else if o = 0x08 then { rc := 7 } else if o = 0x0C then { rw := 7 }
    else if o = 0x18 then { rw := 0x1FFF } else if o = 0x1C then { rw := 0xFFFFF000 } else if o = 0x20 then { rw := 0xFFFF }
    else if o = 0x24 || o = 0x28 then { rc := ones } else {}
  else if off < 0x1880000 then coreAcc (off % 0x10000)
  else if 0x8000000 ≤ off then coreAcc (off % 0x10000)
  else {}

/-- What the register at BAR0 offset `off` holds at reset (the Reset columns of the register tables). -/
def regReset (off : Nat) : Word :=
  if off = 0x000 then 0x1F7A
  else if off = 0x004 then 0x00210008
  else if off = 0x10000 then 0x04000000
  else if off = 0x10008 then 0x000F4240
  else if off = 0x20010 then 0xAAAA5555
  else if off < 0x100000 then 0
  else if off < 0x200000 then
    if off % 0x40 = 0 then 0x00060000 else if off % 0x40 = 4 then 0xFFF else 0
  else if off < 0x220000 then (if off % 0x10 = 0xC && off % 0x10000 < 0x8000 then 1 else 0)
  else if off < 0x300000 then 0
  else if off < 0x400000 then
    let o := off - 0x300000
    if o = 0x0C then 2048 else if o = 0x10 then 0x31
    else if 0x100 ≤ o && o < 0x200 && o % 0x10 = 4 then 64 else 0
  else if off < 0x460000 then
    let o := off % 0x10000
    if o = 0x00 then 0x0A02
    else if o = 0x20 then 8192 else if o = 0x24 then 2048 else if o = 0x28 then 4096 else if o = 0x2C then 2048
    else if o = 0x30 then 10000
    else if 0x100 ≤ o && o < 0x1D0 then
      let l := (o - 0x100) / 4
      if l < 48 then BitVec.ofNat 32 (l * 0x10 + l * 0x400) else 0xFFF5
    else 0
  else if off < 0x500000 then 0
  else if off < 0x600000 then
    let o := off - 0x500000
    if 0x40 ≤ o && o < 0x60 then 16
    else if 0x104 ≤ o && o < 0x178 then 0x700000
    else if o = 0x4000 then 0x4314
    else if 0x4100 ≤ o && o < 0x4180 && o % 0x10 = 0 then 0x10FC0
    else 0
  else if off = 0x700000 then 2
  else if off = 0x700018 then 1024
  else 0

end Sys2Proof.Machine
end

