-- ==== Sys2Proof/Machine/Fp.lean ====
section
/-!
DEFINITION. Machine/Fp.lean: the number formats of 03_number_formats_and_conversion.md, their exact values, IEEE
rounding (R61 to R65, R111), the narrowing pseudocode of R79, stochastic rounding (R74, R75), widening (R76) and
the arithmetic of the engines, computed exactly and rounded once.
-/
namespace Sys2Proof.Machine

/-- Flags of R94: [0] invalid, [1] divide-by-zero, [2] overflow, [3] underflow, [4] inexact, [5] permute-range. -/
abbrev Fl := BitVec 6

def fInvalid : Fl := 1
def fDivzero : Fl := 2
def fOverflow : Fl := 4
def fUnderflow : Fl := 8
def fInexact : Fl := 16
def fPrange : Fl := 32

/-- `f` when `c` holds. -/
def flagIf (c : Bool) (f : Fl) : Fl := if c then f else 0

/-- The exact value of an element: a NaN, an infinity, or (−1)^neg × m × 2^q (a zero when m is 0). -/
inductive Val where
  | nan (signalling : Bool)
  | inf (neg : Bool)
  | fin (neg : Bool) (m : Nat) (q : Int)
  deriving DecidableEq, Repr

def Val.zero (neg : Bool) : Val := .fin neg 0 0

def Val.isNan : Val → Bool
  | .nan _ => true
  | _ => false

def Val.isSnan : Val → Bool
  | .nan s => s
  | _ => false

def Val.isInf : Val → Bool
  | .inf _ => true
  | _ => false

def Val.isZero : Val → Bool
  | .fin _ m _ => m == 0
  | _ => false

/-- The sign bit; a NaN has none. -/
def Val.sign : Val → Bool
  | .nan _ => false
  | .inf n => n
  | .fin n _ _ => n

def Val.neg : Val → Val
  | .nan s => .nan s
  | .inf n => .inf (!n)
  | .fin n m q => .fin (!n) m q

def Val.abs : Val → Val
  | .nan s => .nan s
  | .inf _ => .inf false
  | .fin _ m q => .fin false m q

/-- The value times 2^k: adjusts only the exponent (R78). -/
def Val.scale (v : Val) (k : Int) : Val :=
  match v with
  | .fin n m q => .fin n m (q + k)
  | v => v

/-- 2^k for a natural exponent given as an Int (0 exponent below zero). -/
def pow2 (k : Int) : Nat := 2 ^ k.toNat

/-- The signed integer whose product with 2^q is `fin neg m q₀`, for q ≤ q₀. -/
def alignTo (neg : Bool) (m : Nat) (q₀ q : Int) : Int :=
  let v : Int := (m * pow2 (q₀ - q) : Nat)
  if neg then -v else v

/-- Compares two finite values: the sign of a − b. -/
def finCmp (n₁ : Bool) (m₁ : Nat) (q₁ : Int) (n₂ : Bool) (m₂ : Nat) (q₂ : Int) : Ordering :=
  let q := min q₁ q₂
  compare (alignTo n₁ m₁ q₁ q) (alignTo n₂ m₂ q₂ q)

/-- Order of two values that are not NaN; +0 equals −0. -/
def Val.cmp : Val → Val → Ordering
  | .inf n, .inf k => compare (if n then (-1 : Int) else 1) (if k then (-1 : Int) else 1)
  | .inf n, _ => if n then .lt else .gt
  | _, .inf n => if n then .gt else .lt
  | .fin n₁ m₁ q₁, .fin n₂ m₂ q₂ => finCmp n₁ m₁ q₁ n₂ m₂ q₂
  | _, _ => .eq

/-- A floating-point format of R66 to R69: exponent and fraction widths, bias, largest finite biased exponent. -/
structure FmtP where
  ebits : Nat
  fbits : Nat
  bias : Int
  emaxb : Nat
  hasInf : Bool
  deriving DecidableEq, Repr

def pB32 : FmtP := { ebits := 8, fbits := 23, bias := 127, emaxb := 254, hasInf := true }
def pB64 : FmtP := { ebits := 11, fbits := 52, bias := 1023, emaxb := 2046, hasInf := true }
def pZf16 : FmtP := { ebits := 8, fbits := 7, bias := 127, emaxb := 254, hasInf := true }
def pE4 : FmtP := { ebits := 4, fbits := 3, bias := 7, emaxb := 15, hasInf := false }
def pE5 : FmtP := { ebits := 5, fbits := 2, bias := 15, emaxb := 30, hasInf := true }
def pZf4 : FmtP := { ebits := 2, fbits := 1, bias := 1, emaxb := 3, hasInf := false }

/-- The value of an encoding of a format with infinities and NaNs (binary32, binary64, ZF16, ZF8-E5). -/
def decodeIeee (f : FmtP) (x : Nat) : Val :=
  let frac := x % 2 ^ f.fbits
  let e := x / 2 ^ f.fbits % 2 ^ f.ebits
  let n := x / 2 ^ (f.fbits + f.ebits) % 2 == 1
  if e == f.emaxb + 1 then
    if frac == 0 then .inf n else .nan (frac / 2 ^ (f.fbits - 1) == 0)
  else if e == 0 then .fin n frac (1 - f.bias - f.fbits)
  else .fin n (frac + 2 ^ f.fbits) (e - f.bias - f.fbits)

/-- The value of a ZF8-E4 byte: no infinities, 0x80 the only NaN (R67). -/
def decodeE4 (x : Nat) : Val :=
  if x % 256 == 0x80 then .nan false
  else
    let frac := x % 8
    let e := x / 8 % 16
    let n := x / 128 % 2 == 1
    if e == 0 then .fin n frac (-9) else .fin n (frac + 8) (e - 10)

/-- The value of a ZF4 nibble in a block with ZS8 byte `e` (R69, R71). -/
def decodeZf4 (x e : Nat) : Val :=
  if e % 256 == 0xFF then .nan false
  else
    let frac := x % 2
    let ex := x / 2 % 4
    let n := x / 8 % 2 == 1
    let k : Int := (e % 256 : Nat) - 127
    if ex == 0 then .fin n frac (-1 + k) else .fin n (frac + 2) (ex - 2 + k)

/-- Sign-extended integer as a value. -/
def intVal (i : Int) : Val := .fin (i < 0) i.natAbs 0

def vB32 (x : Nat) : Val := decodeIeee pB32 x
def vB64 (x : Nat) : Val := decodeIeee pB64 x

def nanB32 : Nat := 0x7FC00000
def nanB64 : Nat := 0x7FF8000000000000

/-- The 16 random bits of stochastic rounding (R75). -/
def srBits (seed idx : Nat) : Nat :=
  let x : BitVec 64 := BitVec.ofNat 64 seed ^^^ BitVec.ofNat 64 (idx * 0x9E3779B97F4A7C15)
  let x := (x ^^^ (x >>> 30)) * 0xBF58476D1CE4E5B9#64
  let x := (x ^^^ (x >>> 27)) * 0x94D049BB133111EB#64
  let x := x ^^^ (x >>> 31)
  (x >>> 48).toNat

/-- Whether the kept magnitude of a value, `rem` of 2^s below it, rounds away from zero: the modes of R61. -/
def roundsUp (rnd : Nat) (neg : Bool) (kept rem s seed idx : Nat) : Bool :=
  match rnd with
  | 0 => decide (2 * rem > 2 ^ s) || (2 * rem == 2 ^ s && kept % 2 == 1)
  | 1 => false
  | 2 => !neg && rem != 0
  | 3 => neg && rem != 0
  | 4 => decide (2 * rem ≥ 2 ^ s)
  | _ =>
    let d := if s ≥ 16 then rem / 2 ^ (s - 16) else rem * 2 ^ (16 - s)
    decide (d + srBits seed idx ≥ 65536)

/-- m × 2^q (m not 0) cut to a multiple of 2^t: the kept count, and whether bits were discarded. -/
def cutAt (rnd : Nat) (neg : Bool) (m : Nat) (q t : Int) (seed idx : Nat) : Nat × Bool :=
  if t ≤ q then (m * pow2 (q - t), false)
  else
    let s := (t - q).toNat
    let kept := m / 2 ^ s
    let rem := m % 2 ^ s
    (kept + b2n (roundsUp rnd neg kept rem s seed idx), rem != 0)

/-- Exponent of the leading bit of m × 2^q. -/
def leadExp (m : Nat) (q : Int) : Int := q + (Nat.log2 m : Int)

/-- The largest finite encoding of a format, without sign. -/
def maxFinite (f : FmtP) : Nat := f.emaxb * 2 ^ f.fbits + (2 ^ f.fbits - 1)

/-- Rounds (−1)^neg m × 2^q (m not 0) once into a long format under IEEE 754-2019: the encoding and the flags.
Tininess is detected after rounding (R65). -/
def roundIeee (f : FmtP) (rnd : Nat) (neg : Bool) (m : Nat) (q : Int) : Nat × Fl :=
  let e := leadExp m q
  let emin := 1 - f.bias
  let t := max e emin - f.fbits
  let (kept, inexact) := cutAt rnd neg m q t 0 0
  let carry := kept / 2 ^ (f.fbits + 1) != 0
  let kept := if carry then kept / 2 else kept
  let t := if carry then t + 1 else t
  let sbit := b2n neg * 2 ^ (f.ebits + f.fbits)
  -- tiny: rounded to the format's precision without an exponent bound, the magnitude stays below 2^emin
  let free := (cutAt rnd neg m q (e - f.fbits) 0 0).1
  let tiny := decide (e < emin) && !(e == emin - 1 && free / 2 ^ (f.fbits + 1) != 0)
  let uf := flagIf (tiny && inexact) fUnderflow
  let ix := flagIf inexact fInexact
  if kept / 2 ^ f.fbits == 0 then (sbit + kept, ix ||| uf)
  else
    let biased := t + f.fbits + f.bias
    if biased > f.emaxb then
      let toInf := match rnd with
        | 1 => false
        | 2 => !neg
        | 3 => neg
        | _ => true
      (sbit + (if toInf then (f.emaxb + 1) * 2 ^ f.fbits else maxFinite f), fOverflow ||| fInexact)
    else (sbit + biased.toNat * 2 ^ f.fbits + kept % 2 ^ f.fbits, ix ||| uf)

/-- The narrowing pseudocode of R79, for a finite source that is not zero. DESIGN CHOICE (notes/assumptions/59.md): of the
pairs (m, q) with the source's value, the one decoded is the encoding's own significand, not stripped of trailing zeros;
only stochastic rounding of a binary64 source tells the pairs apart, where t − q is 64 or more. -/
def narrow (f : FmtP) (rnd : Nat) (sat : Bool) (seed idx : Nat) (neg : Bool) (m : Nat) (q : Int) : Nat × Fl :=
  let e := leadExp m q
  let emin := 1 - f.bias
  let t := max e emin - f.fbits
  let sbit := b2n neg * 2 ^ (f.ebits + f.fbits)
  let (kept, inexact) := if t - q ≥ 64 ∧ m < 2 ^ 64 then (0, true) else cutAt rnd neg m q t seed idx
  let carry := kept / 2 ^ (f.fbits + 1) != 0
  let kept := if carry then kept / 2 else kept
  let t := if carry then t + 1 else t
  let ix := flagIf inexact fInexact
  if kept == 0 then
    ((if f.ebits == 4 && f.fbits == 3 then 0 else sbit), ix ||| flagIf inexact fUnderflow)
  else
    let biased : Int := if kept / 2 ^ f.fbits != 0 then t + f.fbits + f.bias else 0
    if biased > f.emaxb then
      ((if f.hasInf && !sat then sbit + (f.emaxb + 1) * 2 ^ f.fbits else sbit + maxFinite f),
        ix ||| fOverflow ||| fInexact)
    else
      (sbit + biased.toNat * 2 ^ f.fbits + kept % 2 ^ f.fbits, ix ||| flagIf (biased == 0 && inexact) fUnderflow)

/-- A value in a long format: NaNs canonical (R64), an exact zero with its sign, else rounded once. A signalling
NaN raises invalid. -/
def packLong (f : FmtP) (rnd : Nat) (v : Val) : Nat × Fl :=
  match v with
  | .nan s => ((f.emaxb + 1) * 2 ^ f.fbits + 2 ^ (f.fbits - 1), flagIf s fInvalid)
  | .inf n => (b2n n * 2 ^ (f.ebits + f.fbits) + (f.emaxb + 1) * 2 ^ f.fbits, 0)
  | .fin n m q => if m = 0 then (b2n n * 2 ^ (f.ebits + f.fbits), 0) else roundIeee f rnd n m q

/-- A value narrowed to ZF16 or ZF8 (codes 2, 3, 4 of R60) under R79 to R81. -/
def packShort (code rnd : Nat) (sat : Bool) (seed idx : Nat) (v : Val) : Nat × Fl :=
  let f := if code = 2 then pZf16 else if code = 3 then pE4 else pE5
  match v with
  | .nan s => ((if code = 2 then 0x7FC0 else if code = 3 then 0x80 else 0x7E), flagIf s fInvalid)
  | .inf n =>
    let sbit := b2n n * 2 ^ (f.ebits + f.fbits)
    if f.hasInf && !sat then (sbit + (f.emaxb + 1) * 2 ^ f.fbits, 0)
    else (sbit + maxFinite f, fOverflow ||| fInexact)
  | .fin n m q =>
    if m = 0 then ((if code = 3 then 0 else b2n n * 2 ^ (f.ebits + f.fbits)), 0) else narrow f rnd sat seed idx n m q

/-- The exact quotient of two finite values, cut to a significand of at least `p` bits with a sticky last bit. -/
def quotient (p : Nat) (m₁ : Nat) (q₁ : Int) (m₂ : Nat) (q₂ : Int) : Nat × Int :=
  let k := p + Nat.log2 m₂ + 2
  let n := m₁ * 2 ^ k
  (2 * (n / m₂) + b2n (n % m₂ != 0), q₁ - q₂ - k - 1)

/-- Integer square root, one bit at a time from bit `k` - 1 down. -/
def isqrtFrom (n : Nat) : Nat → Nat → Nat
  | 0, r => r
  | k + 1, r =>
    let c := r + 2 ^ k
    isqrtFrom n k (if c * c ≤ n then c else r)

def isqrt (n : Nat) : Nat := isqrtFrom n (Nat.log2 n / 2 + 1) 0

/-- Sum of two values that are not NaN, exact; `none` for ∞ − ∞. An exact zero takes the sign of R112's cases: −0
when both are −0, or when the direction is toward −∞ and they are not both +0. -/
def Val.addExact (rnd : Nat) : Val → Val → Option Val
  | .inf n, .inf k => if n == k then some (.inf n) else none
  | .inf n, _ => some (.inf n)
  | _, .inf n => some (.inf n)
  | .fin n₁ m₁ q₁, .fin n₂ m₂ q₂ =>
    let q := min q₁ q₂
    let s := alignTo n₁ m₁ q₁ q + alignTo n₂ m₂ q₂ q
    if s = 0 then
      let bothZero := m₁ = 0 ∧ m₂ = 0
      let n := if bothZero ∧ n₁ = n₂ then n₁ else rnd == 3
      some (.zero n)
    else some (.fin (decide (s < 0)) s.natAbs q)
  | _, _ => none

/-- Product of two values that are not NaN, exact; `none` for ∞ × 0. -/
def Val.mulExact : Val → Val → Option Val
  | .inf n, v => if v.isZero then none else some (.inf (n != v.sign))
  | v, .inf n => if v.isZero then none else some (.inf (n != v.sign))
  | .fin n₁ m₁ q₁, .fin n₂ m₂ q₂ => some (.fin (n₁ != n₂) (m₁ * m₂) (q₁ + q₂))
  | _, _ => none

/-- IEEE addition in a long format. -/
def addLong (f : FmtP) (rnd : Nat) (a b : Val) : Nat × Fl :=
  let iv := flagIf (a.isSnan || b.isSnan) fInvalid
  if a.isNan || b.isNan then ((packLong f 0 (.nan false)).1, iv)
  else match a.addExact rnd b with
    | none => ((packLong f 0 (.nan false)).1, fInvalid)
    | some v => packLong f rnd v

/-- IEEE multiplication in a long format. -/
def mulLong (f : FmtP) (rnd : Nat) (a b : Val) : Nat × Fl :=
  let iv := flagIf (a.isSnan || b.isSnan) fInvalid
  if a.isNan || b.isNan then ((packLong f 0 (.nan false)).1, iv)
  else match a.mulExact b with
    | none => ((packLong f 0 (.nan false)).1, fInvalid)
    | some v => packLong f rnd v

/-- a × b + c with one rounding. A zero times infinity raises invalid whatever c is. -/
def fmaLong (f : FmtP) (rnd : Nat) (a b c : Val) : Nat × Fl :=
  let iv := flagIf (a.isSnan || b.isSnan || c.isSnan) fInvalid
  let qnan := (packLong f 0 (.nan false)).1
  if a.isNan || b.isNan then (qnan, iv)
  else match a.mulExact b with
    | none => (qnan, fInvalid)
    | some p =>
      if c.isNan then (qnan, iv)
      else match p.addExact rnd c with
        | none => (qnan, fInvalid)
        | some v => packLong f rnd v

/-- IEEE division in a long format: x / 0 raises divide-by-zero, 0 / 0 and ∞ / ∞ invalid. -/
def divLong (f : FmtP) (rnd : Nat) (a b : Val) : Nat × Fl :=
  let iv := flagIf (a.isSnan || b.isSnan) fInvalid
  let qnan := (packLong f 0 (.nan false)).1
  let n := a.sign != b.sign
  match a, b with
  | .nan _, _ => (qnan, iv)
  | _, .nan _ => (qnan, iv)
  | .inf _, .inf _ => (qnan, fInvalid)
  | .inf _, _ => packLong f rnd (.inf n)
  | _, .inf _ => packLong f rnd (.zero n)
  | .fin _ m₁ q₁, .fin _ m₂ q₂ =>
    if m₂ = 0 then (if m₁ = 0 then (qnan, fInvalid) else ((packLong f rnd (.inf n)).1, fDivzero))
    else if m₁ = 0 then packLong f rnd (.zero n)
    else
      let (m, q) := quotient (f.fbits + 3) m₁ q₁ m₂ q₂
      packLong f rnd (.fin n m q)

/-- An even exponent and the significand for it. -/
def evenExp (m : Nat) (q : Int) : Nat × Int := if q % 2 = 0 then (m, q) else (2 * m, q - 1)

/-- IEEE square root in a long format; a negative operand raises invalid, −0 gives −0. -/
def sqrtLong (f : FmtP) (rnd : Nat) (a : Val) : Nat × Fl :=
  let qnan := (packLong f 0 (.nan false)).1
  match a with
  | .nan s => (qnan, flagIf s fInvalid)
  | .inf n => if n then (qnan, fInvalid) else packLong f rnd (.inf false)
  | .fin n m q =>
    if m = 0 then packLong f rnd (.zero n)
    else if n then (qnan, fInvalid)
    else
      let (m, q) := evenExp m q
      let k := f.fbits + 4
      let N := m * 2 ^ (2 * k)
      let r := isqrt N
      packLong f rnd (.fin false (2 * r + b2n (r * r != N)) (q / 2 - k - 1))

/-- Reciprocal square root with one rounding: +0 and −0 give the infinity of their sign and raise divide-by-zero;
a negative operand raises invalid; +∞ gives +0 (R173). -/
def rsqLong (f : FmtP) (rnd : Nat) (a : Val) : Nat × Fl :=
  let qnan := (packLong f 0 (.nan false)).1
  match a with
  | .nan s => (qnan, flagIf s fInvalid)
  | .inf n => if n then (qnan, fInvalid) else packLong f rnd (.zero false)
  | .fin n m q =>
    if m = 0 then ((packLong f rnd (.inf n)).1, fDivzero)
    else if n then (qnan, fInvalid)
    else
      let (m, q) := evenExp m q
      let k := f.fbits + 4 + Nat.log2 m
      let N := 2 ^ (2 * k) / m
      let r := isqrt N
      packLong f rnd (.fin false (2 * r + b2n (r * r * m != 2 ^ (2 * k))) (-(q / 2) - k - 1))

/-! ### Element formats (R60) -/

/-- The value of a stored element of format `code`, given the ZS8 byte of its block for ZF4; ZI8 is the integer q
itself (R72). -/
def elemVal (code x zs : Nat) : Val :=
  match code with
  | 0 => vB32 x
  | 1 => vB64 x
  | 2 => decodeIeee pZf16 x
  | 3 => decodeE4 x
  | 4 => decodeIeee pE5 x
  | 5 => decodeZf4 x zs
  | _ => intVal (signed 8 x)

/-- Bits of an element of format `code` (R60). -/
def elemBits (code : Nat) : Nat :=
  match code with
  | 0 => 32
  | 1 => 64
  | 2 => 16
  | 5 => 4
  | _ => 8

/-- The byte e of a ZF4 block whose largest finite magnitude is m × 2^q (R82), and whether it was clamped. -/
def zs8Of (m : Nat) (q : Int) : Nat × Bool :=
  if m = 0 then (0, false)
  else
    let e := leadExp m q - 2 + 127
    if e < 0 then (0, true) else if e > 254 then (254, true) else (e.toNat, false)

/-- The largest finite magnitude of a list of values, as (m, q). -/
def maxMag : List Val → Nat × Int
  | [] => (0, 0)
  | .fin _ m q :: r =>
    let (m', q') := maxMag r
    if finCmp false m q false m' q' == .gt then (m, q) else (m', q')
  | _ :: r => maxMag r

/-- A narrowed ZF4 block: its ZS8 byte, nibbles, flags, and how many elements saturated. -/
structure Zf4Block where
  byte : Nat
  nibs : List Nat
  fl : Fl
  sats : Nat

/-- Narrows one block of ZF4 elements with linear indices from `idx` (R82, R83). An element that saturates counts whether or
not it raises overflow (R87). DESIGN CHOICE (notes/assumptions/59.md): in a block that gets 0xFF the finite elements store
the bits 0 as well, and raise no flag: R81 gives them only for the NaN and the infinity. -/
def packZf4Block (rnd seed idx : Nat) (vs : List Val) : Zf4Block :=
  if vs.any (fun v => v.isNan || v.isInf) then
    { byte := 0xFF, nibs := vs.map (fun _ => 0), fl := flagIf (vs.any (fun v => v.isSnan || v.isInf)) fInvalid, sats := 0 }
  else
    let (m, q) := maxMag vs
    let (e, clamped) := zs8Of m q
    let one (p : Val × Nat) : Nat × Fl :=
      match p.1.scale (127 - e) with
      | .fin n m q => if m = 0 then (b2n n * 8, 0) else narrow pZf4 rnd true seed (idx + p.2) n m q
      | _ => (0, 0)
    let rs := vs.zipIdx.map one
    let fl := rs.foldl (fun f r => f ||| r.2) 0
    { byte := e, nibs := rs.map (·.1), fl := if clamped then fl else fl &&& ~~~fOverflow
      sats := (rs.filter (fun r => r.2 &&& fOverflow != 0)).length }

/-- Narrows a value to ZI8 with channel scale `s` (R84). -/
def packZi8 (rnd seed idx : Nat) (s v : Val) : Nat × Fl :=
  match s, v with
  | .fin false ms qs, .fin n m q =>
    if ms = 0 then (0, fInvalid)
    else if m = 0 then (0, 0)
    else
      let (m, q) := quotient 40 m q ms qs
      -- magnitudes beyond 2^20 saturate whatever their digits are
      if leadExp m q > 20 then (unsigned 8 (if n then -127 else 127), fOverflow ||| fInexact)
      else if leadExp m q < -40 then (0, fInexact)
      else
        let (k, ix) := cutAt rnd n m q 0 seed idx
        if k > 127 then (unsigned 8 (if n then -127 else 127), fOverflow ||| fInexact)
        else (unsigned 8 (if n then -(k : Int) else k), flagIf ix fInexact)
  | .fin false ms _, .inf n => if ms = 0 then (0, fInvalid) else (unsigned 8 (if n then -127 else 127), fOverflow ||| fInexact)
  | _, _ => (0, fInvalid)

/-- Widens a value to the format `code` (0, 1 or 2 of R60): exact, but for a ZF4 element beyond the largest finite
value, which becomes infinite with overflow and inexact (R76). -/
def widen (code : Nat) (v : Val) : Nat × Fl :=
  if code = 2 then packShort 2 0 false 0 0 v else packLong (if code = 1 then pB64 else pB32) 0 v

/-- A value narrowed or widened to format `code` other than ZF4 and ZI8, with rounding code `rnd` (R76 to R81). -/
def packTo (code rnd : Nat) (sat : Bool) (seed idx : Nat) (v : Val) : Nat × Fl :=
  match code with
  | 0 => packLong pB32 rnd v
  | 1 => packLong pB64 rnd v
  | c => packShort c rnd sat seed idx v

/-- Rounds a magnitude toward +∞ to binary32 for the fold of R87; above the largest finite value it is that value. -/
def foldMag (m : Nat) (q : Int) : Nat :=
  if m = 0 then 0 else min (roundIeee pB32 2 false m q).1 0x7F7FFFFF

/-! ### Matrix groups (R110 to R113) -/

/-- What the loop of R110 leaves: the flags, a NaN seen, infinities seen, and the exact window. -/
structure GroupAcc where
  nan : Bool := false
  pinf : Bool := false
  ninf : Bool := false
  /-- the window is win × 2^q -/
  win : Int := 0
  q : Int := 0
  /-- every term so far is a zero of negative sign; every term so far is a +0 (R112) -/
  allNeg : Bool := true
  allPos : Bool := true
  fl : Fl := 0
  deriving DecidableEq, Repr

/-- Adds the exact value (−1)^n m 2^q to the window. -/
def GroupAcc.term (g : GroupAcc) (n : Bool) (m : Nat) (q : Int) : GroupAcc :=
  let z := m == 0
  let q' := if g.win = 0 then q else if z then g.q else min g.q q
  let w := alignTo (decide (g.win < 0)) g.win.natAbs g.q q' + (if z then 0 else alignTo n m q q')
  { g with win := w, q := q', allNeg := g.allNeg && z && n, allPos := g.allPos && z && !n }

/-- One product of the loop of R110; `lim` is ACC_LIM as (m, q). -/
def GroupAcc.product (lim : Nat × Int) (g : GroupAcc) (a b : Val) : GroupAcc :=
  let g := { g with fl := g.fl ||| flagIf (a.isSnan || b.isSnan) fInvalid }
  if a.isNan || b.isNan then { g with nan := true }
  else match a.mulExact b with
    | none => { g with fl := g.fl ||| fInvalid, nan := true }
    | some (.inf s) => if s then { g with ninf := true } else { g with pinf := true }
    | some (.fin s m q) =>
      if finCmp false m q false lim.1 lim.2 != .lt then
        let g := { g with fl := g.fl ||| fOverflow ||| fInexact }
        if s then { g with ninf := true } else { g with pinf := true }
      else g.term s m q
    | some _ => g

/-- The loop of R110 over a group, from entry `c`. -/
def groupLoop (lim : Nat × Int) (c : Val) (ab : List (Val × Val)) : GroupAcc :=
  let g : GroupAcc := match c with
    | .nan _ => { nan := true, allNeg := false, allPos := false }
    | .inf n => { pinf := !n, ninf := n }
    | .fin n m q => ({} : GroupAcc).term n m q
  ab.foldl (fun g p => g.product lim p.1 p.2) g

/-- The special outcomes of R110, if the window is not what decides. -/
def GroupAcc.special (f : FmtP) (g : GroupAcc) : Option (Nat × Fl) :=
  let qnan := (packLong f 0 (.nan false)).1
  if g.nan then some (qnan, g.fl)
  else if g.pinf && g.ninf then some (qnan, g.fl ||| fInvalid)
  else if g.pinf then some ((packLong f 0 (.inf false)).1, g.fl)
  else if g.ninf then some ((packLong f 0 (.inf true)).1, g.fl)
  else none

/-- round_to_acc of the window (R111), with the sign of an exact zero of R112. -/
def GroupAcc.round (f : FmtP) (rnd : Nat) (g : GroupAcc) : Nat × Fl :=
  if g.win = 0 then
    let neg := g.allNeg || (rnd == 3 && !g.allPos)
    (b2n neg * 2 ^ (f.ebits + f.fbits), g.fl)
  else
    let (x, fl) := roundIeee f rnd (decide (g.win < 0)) g.win.natAbs g.q
    (x, g.fl ||| fl)

/-- ACC_LIM of R110: 2^128 − 2^103 for binary32 and 2^1024 − 2^970 for binary64. -/
def accLim (f : FmtP) : Nat × Int := if f.fbits = 23 then (2 ^ 25 - 1, 103) else (2 ^ 54 - 1, 970)

/-- The window of a cell that goes wrong by `off` units of its last place (R121). -/
def GroupAcc.off (g : GroupAcc) (off : Int) : GroupAcc := { g with win := g.win + off }

/-- fold_group (R110): the entry after one group, and the flags it raises. `off` is an error of the window. -/
def foldGroup (f : FmtP) (rnd : Nat) (c : Val) (ab : List (Val × Val)) (off : Int := 0) : Nat × Fl :=
  let g := (groupLoop (accLim f) c ab).off off
  match g.special f with
  | some r => r
  | none => g.round f rnd

/-- The ZI8 group (R113): exact integers, saturating to 32 bits. -/
def foldInt (c : Int) (ab : List (Int × Int)) (off : Int := 0) : Int × Fl :=
  let w := ab.foldl (fun s p => s + p.1 * p.2) c + off
  if w > 2 ^ 31 - 1 then (2 ^ 31 - 1, fOverflow ||| fInexact)
  else if w < -2 ^ 31 then (-2 ^ 31, fOverflow ||| fInexact) else (w, 0)

/-- The three ZF16 pieces of a binary32 operand (R117): successive 8 significant bits, truncated at 2^−133, each with
the sign of the operand. -/
def splitPieces : Val → List Val
  | .fin n m q =>
    if m = 0 then [.zero n, .zero n, .zero n]
    else
      let e := leadExp m q
      -- piece k is the multiple of 2^t below the remainder, t = max (e − 8k − 7) (−133)
      let t (k : Nat) : Int := max (e - 8 * k - 7) (-133)
      let cut (m : Nat) (t : Int) : Nat := if t ≤ q then m else m / pow2 (t - q) * pow2 (t - q)
      let p0 := cut m (t 0)
      let p1 := cut (m - p0) (t 1)
      let p2 := cut (m - p0 - p1) (t 2)
      [.fin n p0 q, .fin n p1 q, .fin n p2 q]
  | v => [v, v, v]

/-- The six passes of a group in split mode, in their order: pieces of a and b (R118). -/
def splitPasses : List (Nat × Nat) := [(2, 0), (1, 1), (0, 2), (1, 0), (0, 1), (0, 0)]

/-- The piece products of one pass of split mode. -/
def splitTerms (ab : List (Val × Val)) (ij : Nat × Nat) : List (Val × Val) :=
  ab.map (fun p => (((splitPieces p.1)[ij.1]?).getD (.zero false), ((splitPieces p.2)[ij.2]?).getD (.zero false)))

/-- Passes `first` to `first + n − 1` of the fold of one group in split mode (R118, R119), each rounded to nearest. What R119 does
before the first pass, and raises for the group as a whole, comes with that pass; a NaN or an infinity that it leaves in the entry
stays there. `off` is an error of the first window. -/
def foldSplit (first n : Nat) (c : Val) (ab : List (Val × Val)) (off : Int := 0) : Nat × Fl :=
  let g := groupLoop (accLim pB32) c ab
  let keep (f : Fl) : Fl := if first = 0 then f else 0
  match g.special pB32 with
  | some r => (r.1, keep r.2)
  | none =>
    let pass (acc : (Nat × Fl) × Int) (ij : Nat × Nat) : (Nat × Fl) × Int :=
      let g := (groupLoop (accLim pB32) (vB32 acc.1.1) (splitTerms ab ij)).off acc.2
      let (x, fl) := match g.special pB32 with
        | some r => r
        | none => g.round pB32 0
      ((x, acc.1.2 ||| fl), 0)
    let start := (packLong pB32 0 c).1
    let (x, fl) := (((splitPasses.drop first).take n).foldl pass ((start, keep g.fl), off)).1
    let lost := [(1, 2), (2, 1), (2, 2)].any (fun ij => (splitTerms ab ij).any (fun p => !p.1.isZero && !p.2.isZero))
    (x, fl ||| keep (flagIf lost fInexact))

end Sys2Proof.Machine
end

