-- ==== Sys2Proof/Machine/State.lean ====
section
/-!
DEFINITION. Machine/State.lean: everything the spec gives the Z8 to hold, as plain data, and its value at reset.
Registers of BAR0 that are plain storage are in `State.regs` by offset; registers that show machine state are
computed from it when they are read (Machine/RegView.lean).
-/
namespace Sys2Proof.Machine

/-- Why a step stops with a fault. -/
inductive Fault where
  /-- Raised by no meaning: the spec gives every command an effect in every state (a command without anything to act on leaves
  the state as it is). Safe. -/
  | reservedSetting (register : String)
  deriving DecidableEq, Repr

/-- Why a step is refused. -/
inductive Refusal where
  /-- Raised by Dispatch alone, for a command that has no meaning yet. Safe. -/
  | notModelled (mnemonic : String)
  deriving DecidableEq, Repr

/-- A pending value of the LW fields of one register (R631): the bits of `mask` wait with the values in `val`. -/
structure LwPend where
  mask : Word
  val : Word
  deriving DecidableEq, Repr

/-- The value half of a Deadbolt pair that waits for its complement (R635). -/
structure DbPend where
  reg : DbReg
  val : Word
  by_ : Requester
  deriving DecidableEq, Repr

/-- Latch and Deadbolt state (R631 to R636); LCH_FIXGRP, LCH_OWN, DB_LAST and the counters are registers. -/
structure LatchSt where
  /-- pending LW values by BAR0 offset -/
  pend : Tab LwPend := []
  /-- tick-armed groups, LCH_TICK (R633) -/
  tick : BitVec 16 := 0
  /-- the pair that is open -/
  db : Option DbPend := none
  /-- offsets whose LW fields were written in the cycle under way: a strobe of this cycle does not apply them (R632) -/
  arrived : List Nat := []
  /-- writes of BAR0 registers in the cycle under way, newest first: requester, offset, value (R626) -/
  writes : List (Requester × Nat × Word) := []
  deriving DecidableEq, Repr

/-- Lock state of the Spindle (R25). -/
inductive Lock where
  | free | seeking | locked | holdover
  deriving DecidableEq, Repr

/-- The role a Spindle acts in (R51). -/
inductive Role where
  | standalone | master | follower
  deriving DecidableEq, Repr

/-- Costs admitted to one class and turn (R36). -/
structure Ledger where
  main : Nat := 0
  fb : Nat := 0
  deriving DecidableEq, Repr

/-- Where an admitted program came from: a TURN command of a queue, or a sequence step (R58 KIND and SOURCE). -/
inductive ProgSrc where
  | turn (q slot : Nat)
  | step (seq : Nat)
  deriving DecidableEq, Repr

/-- How far an admitted program has come (R41 to R45, R493 to R499). -/
inductive Phase where
  /-- admitted or listed, its turn not yet begun or its cores not yet assigned -/
  | waiting
  /-- the main program runs -/
  | main
  /-- the main program has overrun and is being stopped -/
  | stopping
  /-- the fallback program runs -/
  | fallback
  deriving DecidableEq, Repr

/-- A program that the Doorstop watches (R41). Consumption is in core cycles. -/
structure Prog where
  src : ProgSrc
  cls : Nat
  target : Nat
  mainCost : Nat
  fb : Bool
  fbCost : Nat
  mainAddr : Nat
  fbAddr : Nat
  thread : Nat
  cores : List Nat
  nCores : Nat := 0
  part : Nat := 0
  phase : Phase := .waiting
  /-- its cores are assigned to it (R41, R494); a waiting TURN names cores that it does not hold -/
  got : Bool := false
  /-- count of ticks at its admission, or at its sequence's activation (R46) -/
  admitAt : Nat := 0
  used : Nat := 0
  fbUsed : Nat := 0
  /-- TOL in force at the tick that started the target turn (R42) -/
  tol : Nat := 0
  /-- TOL in force when the fallback started (R44) -/
  fbTol : Nat := 0
  /-- CAUSE of the overrun record (R58), once an overrun has arisen -/
  cause : Nat := 0
  overStamp : Nat := 0
  /-- turn in which it overran (R58) -/
  overTurn : Nat := 0
  irq : Bool := false
  /-- ORDER of its descriptor (R236) -/
  order : Bool := false
  prio : Nat := 0
  tokens : Nat := 0
  /-- cores on which the program of the phase has not yet started (R494, R499) -/
  saving : List Nat := []
  /-- number of its overrun record (R58) -/
  logIdx : Option Nat := none
  /-- held until its pages are local (R316) -/
  held : Bool := false
  /-- a reset of its queue's port stops it at its next tile boundary (R466) -/
  reset : Bool := false
  deriving DecidableEq, Repr

/-- The standing admission of a live sequence (R39). -/
structure Standing where
  cls : Nat
  main : Nat
  fb : Nat
  /-- count of ticks at the activation (R46) -/
  at_ : Nat
  deriving DecidableEq, Repr

/-- The Spindle, the ledgers and the Doorstop (02_turns_and_the_timing_promise.md). -/
structure TurnSt where
  running : Bool := false
  num : BitVec 48 := 0
  /-- ticks since reset: the order of turns, also where the Spindle was started anew (R46) -/
  ticks : Nat := 0
  tick : BitVec 64 := 0
  lock : Lock := .free
  inRun : Nat := 0
  lastFour : List Nat := []
  role : Role := .standalone
  /-- follower: number and phase taken from a marker (R29) -/
  stepped : Bool := false
  goodRun : Nat := 0
  badRun : Nat := 0
  aligned : Bool := false
  capExceeded : Bool := false
  /-- CAP_CORES, which falls at a tick (R46, R540) -/
  capCount : Nat := 128
  /-- the last tick found the class configuration valid (R34) -/
  valid : Bool := false
  periodPending : Option Word := none
  /-- ledgers by class × 2^48 + turn (R36) -/
  ledgers : Tab Ledger := []
  /-- standing admissions by sequence index (R39) -/
  standing : Tab Standing := []
  /-- CAP and FBT in force since the last tick, by class (R40) -/
  capNow : Tab Nat := []
  fbtNow : Tab Nat := []
  /-- counts of ticks at which CAP_CORES fell, newest first (R46) -/
  capFalls : List Nat := []
  /-- counts of ticks that brought a shorter period, newest first (R46) -/
  periodCuts : List Nat := []
  progs : Tab Prog := []
  nextProg : Nat := 0
  /-- overrun records written since the last read of TRN_EVENT (R55) -/
  sinceRead : Nat := 0
  /-- the overrun log: 8 words per record (R58) -/
  ovrTotal : Nat := 0
  deriving DecidableEq, Repr

/-- State code of an accumulator tile slot (R138). -/
inductive SlotState where
  | free | filling | kept | ready | draining | poisoned
  deriving DecidableEq, Repr

/-- One command of an accumulation chain as it worked on a slot (R141): its descriptor, the tile of it, and where its operands
started. -/
structure ChainPart where
  /-- identity of the command -/
  id : Nat
  desc : BitVec 512
  tile : Nat
  aBase : Nat
  bBase : Nat
  deriving DecidableEq, Repr

/-- A tile slot (R134 to R142): state, organisation, and the chain that owns it. -/
structure Slot where
  st : SlotState := .free
  /-- 64-bit organisation: this is a slot of a pair (R135) -/
  pair : Bool := false
  /-- KIND of its entries (R145): 0 binary32, 1 integer, 2 binary64 -/
  kind : Nat := 0
  /-- logical core and context of the chain, and the commands in it so far (R141) -/
  core : Nat := 0
  ctx : Ctx := .thread 0
  count : Nat := 0
  /-- identity of the command that wrote it last -/
  cmd : Nat := 0
  /-- the commands of the chain so far, oldest first (R143) -/
  parts : List ChainPart := []
  deriving DecidableEq, Repr

/-- What a row tag of a vector register names: tile row, and the tile (R176). -/
structure RowTag where
  row : Nat
  tile : Nat
  deriving DecidableEq, Repr

/-- What belongs to one physical core: scratchpad, accumulator memory, Hatch, vector registers and engine positions. -/
structure Phys where
  /-- scratchpad bytes by address, 0 where not listed (R369) -/
  spd : Tab Byte := []
  /-- accumulator entries by 256 × row + column, 0 where not listed (R134) -/
  acc : Tab Word := []
  /-- by slot: the draw from which rows of it that are not listed are open (R268) -/
  accFree : Tab Nat := []
  slots : Tab Slot := []
  /-- handles, oldest first (R144) -/
  hatch : List (BitVec 64) := []
  /-- vector register words by 512 × register + word, 0 where not listed (R167) -/
  vregs : Tab Word := []
  tags : Tab RowTag := []
  vl : Nat := 0
  /-- handle of the current tile (R176), and the next row to drain -/
  cur : Option (BitVec 64) := none
  /-- vector engine: index of the current instruction, pass, mode, thread (R193) -/
  vpc : Nat := 0
  pass : Bool := false
  stream : Bool := false
  vthread : Nat := 0
  /-- address of the command's first VST (R174) -/
  vstFirst : Option Nat := none
  hatchWait : Bool := false
  sinkWait : Bool := false
  /-- matrix engine waits (R127) -/
  mxHatchWait : Bool := false
  mxAccWait : Bool := false
  /-- the array waits in this cycle for a group that is not staged (R107) -/
  mxOpndWait : Bool := false
  /-- 64-bit words whose stored code is wrong, with the number of wrong bits: accumulator, vector registers, scratchpad
  (R150, R190, R372) -/
  accUps : Tab Nat := []
  vecUps : Tab Nat := []
  spdUps : Tab Nat := []
  /-- self-test flags of a window that holds no logical slot (R126) -/
  testFlags : Fl := 0
  /-- after a pre-emption: the draw from which what is not listed has no defined contents (R501) -/
  free : Option Nat := none
  deriving DecidableEq, Repr

/-- State code of a thread (R200). -/
inductive ThrState where
  | off | ready | wait | faulted | halted
  deriving DecidableEq, Repr

/-- The atomic operations of R214 and R458. -/
inductive AmoOp where
  | swap | add | and | or | xor | maxu | minu | max | min | cas
  deriving DecidableEq, Repr

/-- A memory access of a thread: what it does when it completes (R211). -/
inductive MemOp where
  /-- cached load of `w` bytes into `rd`, sign-extended when `sx` -/
  | loadCached (w : Nat) (sx : Bool) (rd : Nat)
  | loadUncached (w : Nat) (rd : Nat)
  | storeUncached (w : Nat) (v : Nat)
  | amo (op : AmoOp) (w : Nat) (rd : Nat) (b cmp : Nat)
  /-- the read of a descriptor by TCMD (R215) -/
  | descr (rd : Nat) (nb discard : Bool)
  /-- the fetch of a line of instructions (R200, R203) -/
  | fetch
  deriving DecidableEq, Repr

/-- What a thread in WAIT waits for (R200, WAITON of R226). -/
inductive Wait where
  | none
  /-- a memory access at `addr`; `res` is what the memory controller answered: the value, and whether it is poisoned -/
  | data (op : MemOp) (addr : Nat) (res : Option (Nat × Bool))
  /-- TCMD: room in the core command queue and a free tag; TCMDs that wait enter by `turn`, the order of their issue (R217) -/
  | queue (desc : BitVec 512) (rd : Nat) (discard : Bool) (turn : Nat)
  | twait (tag rd : Nat)
  | summary (slot rd : Nat)
  | fence (kind : Nat)
  | pause
  | wtick (turn : Nat)
  deriving DecidableEq, Repr

/-- A store that has not yet reached the panel cache (R204). -/
structure PendStore where
  addr : Nat
  data : List Byte
  /-- the cycle in which it issued (R224) -/
  at_ : Nat := 0
  deriving DecidableEq, Repr

/-- One hardware thread of a control core (R199). -/
structure Thread where
  pc : BitVec 48 := 0
  /-- g1 to g31; g0 is read as 0 by `reg` -/
  regs : Tab Dword := []
  /-- after a warm start: the draw from which a register that is not listed has no defined contents (R576) -/
  free : Option Nat := none
  /-- p7 to p0, bit 0 always read as 1 -/
  preds : BitVec 8 := 0
  st : ThrState := .off
  wait : Wait := .none
  part : BitVec 4 := 0
  start : BitVec 48 := 0
  excCause : BitVec 8 := 0
  excCode : BitVec 12 := 0
  excAddr : Dword := 0
  issuedRc : Word := 0
  issued : Dword := 0
  stores : List PendStore := []
  /-- RUN was written 0 while it waits on a memory access: OFF once the access completes (R224) -/
  stopPending : Bool := false
  deriving DecidableEq, Repr

/-- A command tag that is held (R216): its retire word once the command has retired. -/
structure TagSt where
  /-- identity of the command that holds it -/
  id : Nat
  ctx : Ctx
  discard : Bool
  word : Option Dword := none
  /-- the command's descriptor, for what names it by DEP (R375) -/
  desc : BitVec 512 := 0
  /-- a queue command's tag is free from its retirement on; in that cycle a dependent still finds it (R237) -/
  freed : Option Nat := none
  deriving DecidableEq, Repr

/-- A tensor command that entered a core command queue (R217): read once (R231). -/
structure Cmd where
  id : Nat
  desc : BitVec 512
  tag : Nat
  ctx : Ctx
  part : Nat
  discard : Bool
  /-- the CHAIN's stage table, read at decode (R255) -/
  stages : List (BitVec 512) := []
  /-- commands named by DEP0 and DEP1 (R237) -/
  deps : List Nat := []
  /-- TURN program or sequence step whose thread issued it -/
  prog : Option Nat := none
  deriving DecidableEq, Repr

/-- A fold of a retiring store into its scale slot (R87). -/
structure Fold where
  slot : Nat
  fmt : Nat
  exp : Nat
  mag : Nat
  sats : Nat
  /-- a narrowed run has joined it (R87, R174) -/
  any : Bool := false
  /-- the stage stores with the slot; a widening XFER only reads its scale (R376) -/
  store : Bool := true
  deriving DecidableEq, Repr

/-- A stage of a running command: how far it has come. -/
structure StageRun where
  round : Nat := 0
  /-- tile in hand, and tile steps of it that have completed (R101) -/
  tile : Nat := 0
  step : Nat := 0
  /-- a tile step is between its start and its checks -/
  busy : Bool := false
  /-- the tile in hand holds a place in the Hatch (R102) -/
  reserved : Bool := false
  /-- rows, elements or tiles of the current round that are finished -/
  pos : Nat := 0
  started : Bool := false
  done : Bool := false
  /-- requests of its round that are outstanding (R258, R385) -/
  out : Nat := 0
  /-- data that has come for accumulator rows of a slot that is FILLING or DRAINING, by position: it waits (R139) -/
  waiting : List (Nat × List Byte) := []
  deriving DecidableEq, Repr

/-- A command that its engines have taken (R217): what it has done so far. -/
structure Run where
  cmd : Cmd
  stages : List StageRun := []
  status : Nat := 0
  /-- flags raised so far, by set: 0 matrix, 1 vector, 2 transfer (R94) -/
  sets : List (Nat × Fl) := []
  /-- summary slots it will post at retirement (R187) -/
  sums : Tab Dword := []
  /-- host DMA requests or messages still outstanding -/
  outstanding : Nat := 0
  /-- everything has been issued: the command finishes with its last outstanding request -/
  issuedAll : Bool := false
  /-- by stage: the scale slot it stores with, as read at its start, and what it will fold (R86, R87) -/
  folds : Tab Fold := []
  /-- provisional entries that it reads (R516) -/
  links : List Nat := []
  /-- it read a tainted range: it never crosses the Sill (R517) -/
  tainted : Bool := false
  /-- it is sampled: the spare runs its duplicate (R523) -/
  sampled : Bool := false
  /-- it waits for a replay (R519) -/
  replaying : Bool := false
  /-- it runs as a replay: a check that fails now fails the replay (R521) -/
  again : Bool := false
  /-- it kept its current tile when it stopped: the replay's first VPOP takes that tile again (R176) -/
  regain : Bool := false
  /-- GEN sampled by TRACK at the first read (R382) -/
  g0 : Tab Nat := []
  /-- the source of a tracked transfer was written while it was read (R382) -/
  changed : Bool := false
  done : Bool := false
  deriving DecidableEq, Repr

/-- What belongs to one logical core: its threads, tags, command queue and flag sets. -/
structure LCore where
  threads : Tab Thread := []
  tags : Tab TagSt := []
  queue : List Cmd := []
  running : List Run := []
  /-- final status of every retired command, by identity (R237) -/
  doneStatus : Tab Nat := []
  /-- GEN sampled by the TRACK XFERs that started, by identity (R382) -/
  samples : Tab Nat := []
  /-- the YIELD in force (R501) -/
  yield : Option (BitVec 512) := none
  /-- flag sets: matrix, vector, transfer (R94, R220) -/
  flags : Tab (BitVec 6) := []
  /-- summary slots by 4 × thread + slot; and those that are pending, each with the identity of the command that will post it
  (R186, R187) -/
  sums : Tab Dword := []
  sumPend : List (Nat × Nat) := []
  /-- TCMDs that have had to wait so far (R217) -/
  waited : Nat := 0
  /-- data-cache lines by line number (R203) -/
  dcache : Tab (BitVec 512) := []
  /-- instruction-cache lines by line number (R203) -/
  icache : Tab (BitVec 512) := []
  /-- lines of the two caches whose check bits are wrong (R208) -/
  dBad : List Nat := []
  iBad : List Nat := []
  /-- the thread that issued last (R201) -/
  lastThread : Fin 8 := 7
  deriving DecidableEq, Repr

/-- A line of a panel cache (R203): data, the cores that wrote it since it was last written back, and poison (R208). -/
structure PLine where
  data : BitVec 512
  dirty : List Nat := []
  poison : Bool := false
  /-- the most wrong bits in a word of it (R208) -/
  ups : Nat := 0
  deriving DecidableEq, Repr

/-- A Revolve pass in a ring record (R279 to R293); the record's fields are in device memory. -/
structure RingSt where
  /-- the own copy is in buffer 0 -/
  own : Bool := false
  /-- own copy, arrivals and done word as they stood at the last tick (R284, R288) -/
  tickOwn : Bool := false
  tickArrived : Nat := 0
  tickDone : Nat := 0
  /-- hops whose blocks have arrived, the own copy not counted -/
  arrived : Nat := 0
  /-- hops that have started, and the turn of the last start -/
  started : Nat := 0
  lastStart : Nat := 0
  /-- buffers of RIGHT that hold credit (R285) -/
  credit : List Nat := []
  /-- hops whose block was sent, and those whose send has finished -/
  sent : Nat := 0
  sendDone : Nat := 0
  /-- buffers granted to LEFT so far, as the last hop that may arrive -/
  granted : Nat := 0
  stall : Nat := 0
  progress : Bool := false
  /-- provisional entry of the block of hop `provHop`, and RETRACT (R281, R293) -/
  prov : Option Nat := none
  provHop : Nat := 0
  retract : Bool := false
  /-- the block of hop `provHop` was retracted and its replacement has not arrived -/
  await : Bool := false
  /-- own copy sent provisionally: it waits to be sent again (R293) -/
  resend : Bool := false
  deriving DecidableEq, Repr

/-- A return of a page: the tier it comes from, its target turn (R313; 0 for one that a held step wants at once, R316), and
whether its copy has started. -/
structure KvReturn where
  page : Nat
  tier : Nat
  target : Nat
  started : Bool := false
  deriving DecidableEq, Repr

/-- What the page engine holds for a pool beside its record, page table and nodes in memory (10_kv_pages_and_prefix_tree.md). -/
structure PoolSt where
  /-- pages that are not FREE, and local and tier frames in use -/
  pages : List Nat := []
  lused : List Nat := []
  tused : Tab (List Nat) := []
  returns : List KvReturn := []
  /-- bytes that each tier may still start to return in this turn -/
  budget : Tab Nat := []
  /-- FREE fell below LOW and has not reached HIGH (R312) -/
  spilling : Bool := false
  /-- pages whose spill copy the tier has taken, and whose return copy has landed -/
  acked : List Nat := []
  landed : List Nat := []
  /-- the tail word as last read (R309) -/
  tail : Nat := 0
  /-- nodes through which each sequence is attached (R310) -/
  attached : Tab (List Nat) := []
  /-- the program whose step wrote the last token of granule g of sequence i, at 65,536 × i + g, until its group is FULL (R302) -/
  closers : Tab Nat := []
  deriving DecidableEq, Repr

/-- The value of a tree node (R152): encodings in the node format, and what keeps it provisional (R157): commands that
have not crossed the Sill and provisional entries. -/
structure NodeVal where
  els : List Nat
  cmds : List Nat := []
  links : List Nat := []
  deriving DecidableEq, Repr

/-- An on-module reduction tree (R154, R248), by RID + 65,536 × MODULE. -/
structure RedTree where
  /-- descriptor of the first contributor that issued -/
  desc : BitVec 512
  part : Nat
  /-- identity of the RED by contributing core -/
  cores : Tab Nat := []
  /-- cycle of the first issue -/
  at_ : Nat := 0
  /-- values by 128 × level + lowest contributor index -/
  nodes : Tab NodeVal := []
  /-- a node raised overflow, or met a ZF16 infinity or NaN (R329) -/
  ovf : Bool := false
  deriving DecidableEq, Repr

/-- A right child that has arrived: its wire bytes, its port, and its provisional entry. -/
structure RightVal where
  data : List Byte
  port : Nat
  link : Option Nat := none
  deriving DecidableEq, Repr

/-- An outstanding or held instance of a group (R326, R453), by 1,024 × group + instance. -/
structure InstSt where
  gath : Bool := false
  /-- local contributors that wait for it, as (core, identity); none while it is only held -/
  contribs : List (Nat × Nat) := []
  desc : BitVec 512 := 0
  /-- the module's own part has entered -/
  begun : Bool := false
  /-- own values by 64 × shard + level, and right children by 64 × shard + level of the node they belong to -/
  vals : Tab NodeVal := []
  right : Tab RightVal := []
  /-- shards whose result is written here, or whose gather is complete -/
  got : List Nat := []
  /-- messages sent and not yet ended, and the first failing status -/
  sends : Nat := 0
  fail : Nat := 0
  stall : Nat := 0
  progress : Bool := false
  deriving DecidableEq, Repr

/-- A held fragment of the next epoch (R340): group, turn of arrival, port, provisional entry, flits. -/
structure AheadFrag where
  group : Nat
  turn : Nat
  port : Nat
  flits : List (BitVec 2048)
  deriving DecidableEq, Repr

/-- Shard groups (11_sharded_training.md); their records are in device memory. -/
structure GroupSt where
  insts : Tab InstSt := []
  ahead : List AheadFrag := []
  /-- groups armed when READY was sent with DRAINED 1: commands from this identity on are held (R339) -/
  drainAt : Tab Nat := []
  deriving DecidableEq, Repr

/-- A token bucket (R359): contents in 1/4,096 block, and the cycle they stood at. -/
structure Bucket where
  tokens : Nat
  at_ : Nat
  deriving DecidableEq, Repr

/-- A request in a pseudo-channel controller (R363). -/
structure HbmReq where
  addr : Nat
  op : MemOp
  core : Nat
  thread : Nat
  part : Nat
  /-- cycle of issue, and cycle in which it entered the controller, from which its age counts (R363) -/
  at_ : Nat
  entered : Nat
  deriving DecidableEq, Repr

/-- The memory controllers (12_memory_system.md); the MEM registers are in `State.regs`. -/
structure MemSt where
  buckets : Tab Bucket := []
  reqs : Tab (List HbmReq) := []
  openRow : Tab Nat := []
  /-- pseudo-channels whose spare line is being trained (R353) -/
  training : List Nat := []
  /-- corrected symbols in this scrub pass by 64 × pseudo-channel + line (R352) -/
  lineErr : Tab Nat := []
  /-- block 0 to 3 of the granule MEM_SCRUB_POS that the scrub reads next -/
  scrubBlk : Nat := 0
  /-- blocks served below a unit of 4,096, by partition (R366) -/
  servedSub : Tab Nat := []
  deriving DecidableEq, Repr

/-- State code of a port (R409). -/
inductive LnkState where
  | off | cal | seek | train | up | down | failed
  deriving DecidableEq, Repr

/-- A sequenced flit that waits or is not acknowledged (R402): its 256 bytes without SEQ and CRC, its sequence number, and
for a MARKER the link time from which AGE counts (R421). -/
structure SeqFlit where
  flit : BitVec 2048
  seq : Nat := 0
  base : Option Int := none
  deriving DecidableEq, Repr

/-- A fragment that waits for DATA slots of a port (R433, R435): the flits not yet sent. -/
structure OutFrag where
  flits : List (BitVec 2048)
  /-- it enters a dimension on this port -/
  enter : Bool := true
  started : Bool := false
  /-- own message, and whether this is its last fragment -/
  own : Option Nat := none
  last : Bool := false
  /-- source, tag and destination of a transit fragment -/
  transit : Option (Nat × Nat × Nat) := none
  deriving DecidableEq, Repr

/-- An Isaryn port (14_isaryn_physical_and_link.md); LNK registers of plain storage are in `State.regs`. -/
structure Port where
  st : LnkState := .off
  epoch : Nat := 0
  qualityLow : Bool := false
  /-- lanes FAILED in the map in force, transmit and receive -/
  txFailed : BitVec 52 := 0
  rxForce : BitVec 52 := 0
  txGen : Nat := 0
  rxGen : Nat := 0
  /-- receive lanes marked FAILED, and the masks by the generation that announced them (R416) -/
  rxFailed : BitVec 52 := 0
  masks : Tab (BitVec 52) := []
  lastGen : Nat := 0
  /-- corrected symbols in the current 1 ms window by lane (R415) -/
  window : Tab Nat := []
  nextSeq : Nat := 0
  expSeq : Nat := 0
  /-- unacknowledged flits, oldest first, and those that a go-back resends (R402) -/
  retry : List SeqFlit := []
  resend : List SeqFlit := []
  nakDue : Bool := false
  inEpisode : Bool := false
  goBacks : Nat := 0
  fnum : Nat := 0
  /-- flits of each VC sent, freed here, freed there, and the partner's sizes (R405) -/
  sent : Tab Nat := []
  freed : Tab Nat := []
  cred : Tab Nat := []
  peerSize : Tab Nat := []
  /-- own receive sizes in force (R425) -/
  size : Tab Nat := []
  misses : Nat := 0
  lastBeat : Nat := 0
  /-- TX_TIME of the partner's last heartbeat and the link time of its receipt (R406) -/
  peerBeat : Nat := 0
  peerAt : Nat := 0
  delays : List Nat := []
  /-- CONTROL flits that wait -/
  ctl : List SeqFlit := []
  /-- fragments that wait by VC -/
  outq : Tab (List OutFrag) := []
  /-- accepted DATA flits by VC, oldest first -/
  rx : Tab (List (BitVec 2048)) := []
  /-- UNREACH has been sent for these (source, tag) pairs while the port is not UP (R445) -/
  told : List (Nat × Nat) := []
  /-- below a unit of 2^20 flits (R426) -/
  txSub : Nat := 0
  rxSub : Nat := 0
  deriving DecidableEq, Repr

/-- Who waits for a message. -/
inductive MsgOwner where
  /-- stage `k` of a running command (0 where it has one) -/
  | cmd (core id : Nat) (k : Nat := 0)
  | ring (r hop : Nat)
  | spill (pool page : Nat)
  | tree (group inst : Nat)
  | other
  deriving DecidableEq, Repr

/-- A message that this module sent and that has not ended (R444, R445). -/
structure Msg where
  dest : Nat
  mtag : Nat
  port : Nat
  owner : MsgOwner := .other
  kind : Nat := 0
  res : Bool := false
  prov : Bool := false
  /-- commands that have not crossed the Sill and provisional entries that its confirmation waits for (R450, R516) -/
  cmds : List Nat := []
  links : List Nat := []
  poison : Bool := false
  /-- count of ticks at the sending of its last fragment -/
  sentTurn : Option Nat := none
  /-- count of ticks at the last confirmation of what it was derived from (R450) -/
  inputs : Nat := 0
  /-- DONE has arrived: only its confirmation is outstanding -/
  done : Bool := false
  deriving DecidableEq, Repr

/-- A reassembly context (R448) of (SRC, MTAG). -/
structure MsgCtx where
  src : Nat
  mtag : Nat
  got : List Nat := []
  nfrag : Nat := 0
  kind : Nat := 0
  arg : Nat := 0
  /-- a TREE message's data by fragment (R326) -/
  data : Tab (List Byte) := []
  /-- counts of ticks (`TurnSt.ticks`) at its last and its first fragment (R442, R449) -/
  turn : Nat := 0
  first : Nat := 0
  deriving DecidableEq, Repr

/-- An outstanding READ (R446): the page that returns, and its range here. -/
structure OutRead where
  pool : Nat
  page : Nat
  dest : Nat
  lo : Nat
  n : Nat
  deriving DecidableEq, Repr

/-- The message layer (15_isaryn_messages_and_routing.md); its records are in device memory. -/
structure MsgSt where
  /-- messages sent, by number; MTAG is the number modulo 65,536 -/
  out : Tab Msg := []
  next : Nat := 0
  ctxs : List MsgCtx := []
  /-- (source, tag, count of ticks), oldest first (R449) -/
  tombs : List (Nat × Nat × Nat) := []
  /-- (source, tag, count of ticks) of retracted messages whose remaining fragments are discarded (R451), and of denied messages that
  have been answered (R445); kept for 128 turns, in which a tag is not used again (R436) -/
  dead : List (Nat × Nat × Nat) := []
  denied : List (Nat × Nat × Nat) := []
  reads : Tab OutRead := []
  /-- units charged in this turn by 16 × port + partition (R441), and flits of VC2 sent in this turn by port (R438) -/
  charged : Tab Nat := []
  vc2 : Tab Nat := []
  deriving DecidableEq, Repr

/-- A host port (R457 to R466). -/
structure HostPort where
  link : Bool := false
  ref : Bool := false
  /-- BAR2 window base and log2 of its size in GiB (R460, R462) -/
  wbase : Nat := 0
  bar2Log : Nat := 6
  funcMask : Bool := false
  d3hot : Bool := false
  /-- the link is being retrained after PERST_N (R651) -/
  retraining : Bool := false
  deriving DecidableEq, Repr

/-- State code of a queue (R473). -/
inductive QState where
  | off | active | draining | error
  deriving DecidableEq, Repr

/-- A hardware command queue (16_host_ports_and_queues.md); HQ_CTL, addresses and counters are in `State.regs`. -/
structure Queue where
  st : QState := .off
  cause : Nat := 0
  sqHead : Nat := 0
  sqTail : Nat := 0
  cqTail : Nat := 0
  cqHead : Nat := 0
  phase : Bool := true
  /-- transfers decoded and not yet retired (R386) -/
  outstanding : Nat := 0
  /-- descriptors read whose records are not yet written (R472) -/
  unrec : Nat := 0
  /-- records written and not yet released by CQ_HEAD (R472) -/
  unrel : Nat := 0
  /-- requesting records not yet covered by a message (R479) -/
  uncovered : Nat := 0
  /-- descriptors read that wait to enter a core command queue (R472) -/
  fetched : List (Nat × BitVec 512) := []
  deriving DecidableEq, Repr

/-- What a host DMA read is for (R385). -/
inductive HostReadUse where
  | ring (q first n : Nat)
  /-- a piece of an XFER: stage `k` of command `cmd` of logical core `core`, bytes from `pos` of its source stream -/
  | xfer (core cmd k pos : Nat)
  | pageReturn (pool page : Nat)
  /-- 4 KiB piece `k` of the image or record that the recovery stand fetches (R580) -/
  | recovery (k : Nat)
  deriving DecidableEq, Repr

/-- An outstanding host DMA read. -/
structure HostRead where
  port : Nat
  addr : Nat
  len : Nat
  use : HostReadUse
  deriving DecidableEq, Repr

/-- Host ports, queues and the host DMA engines. -/
structure HostSt where
  ports : Tab HostPort := []
  queues : Tab Queue := []
  /-- owners of queue groups that differ from reset: 0 none, 1 H0, 2 H1, 3 internal (R467) -/
  owners : Tab Nat := []
  reads : Tab HostRead := []
  nextRead : Nat := 0
  /-- queue served last, by 4 × intake + PRIO (R472) -/
  lastServed : Tab Nat := []
  deriving DecidableEq, Repr

/-- How the pre-emption of a logical core stands (R508); while `stopping` the engines have been told to stop and the save has
not begun (R498, R504). -/
inductive PreState where
  | none | stopping | saving | saved | restoring
  deriving DecidableEq, Repr

/-- What a save area holds (R499, R501); its layout is internal to the Z8. -/
structure Saved where
  /-- contexts of the threads that were displaced, by number -/
  ctxs : Tab Thread := []
  /-- progress records of the stopped commands -/
  runs : List Run := []
  flags : Tab (BitVec 6) := []
  /-- summary slots of the displaced threads by 4 × thread + slot -/
  sums : Tab Dword := []
  /-- what was declared live, and the positions of the stopped engines -/
  phys : Phys := {}
  bytes : Nat := 0
  deriving DecidableEq, Repr

/-- Pre-emption of a logical core (R498 to R508). -/
structure CorePre where
  st : PreState := .none
  thread : Nat := 0
  saved : Option Saved := none
  /-- bytes written by the last save -/
  bytes : Nat := 0
  deriving DecidableEq, Repr

/-- The scheduler (17_sequences_scheduling_and_preemption.md); the sequence table and the step program records are in
device memory. -/
structure SeqSt where
  /-- pending map (R492) -/
  marked : Tab Unit := []
  /-- requester that activated an entry, by index -/
  act : Tab Requester := []
  deriving DecidableEq, Repr

/-- A command that has retired and not yet crossed the Sill (R514). -/
structure SillEnt where
  id : Nat
  core : Nat
  ctx : Ctx
  /-- the budgeted program that it belongs to -/
  prog : Option Nat := none
  /-- ranges it read and wrote, as (start, bytes); scratchpad of logical core l starts at (l + 1) × 2^52 -/
  reads : List (Nat × Nat) := []
  writes : List (Nat × Nat) := []
  /-- its duplicate has not yet retired (R524) -/
  dup : Bool := false
  /-- a replay after a duplicate mismatch is outstanding (R525) -/
  replay : Bool := false
  /-- provisional entries that it read and that are not yet confirmed (R516) -/
  links : List Nat := []
  /-- serial engines that it used: they wait while it is replayed (R519) -/
  engines : List Nat := []
  deriving DecidableEq, Repr

/-- A provisional entry (R451, R516). -/
structure ProvEnt where
  src : Nat := 0
  mtag : Nat := 0
  lo : Nat := 0
  n : Nat := 0
  /-- entries of a derived range: what it is linked to, and the command that wrote it -/
  links : List Nat := []
  cmd : Option Nat := none
  complete : Bool := false
  confirmed : Bool := false
  /-- turn of the last fragment's arrival -/
  turn : Nat := 0
  deriving DecidableEq, Repr

/-- A tile whose slot was poisoned after its command had finished it (R150): its chain is replayed under the identity of that
command, and its handle, if it had one, is pushed again. -/
structure Redo where
  core : Nat
  id : Nat
  at_ : Nat
  slot : Slot
  handle : Option (BitVec 64)
  deriving DecidableEq, Repr

/-- What the spare core of a panel does (R519, R520, R536). -/
inductive SpareWork where
  | idle
  | replay (core id : Nat)
  | dup (core id : Nat)
  | test (pos : Nat)
  deriving DecidableEq, Repr

/-- A panel's spare: its work, and the replays that wait (R520). -/
structure Spare where
  work : SpareWork := .idle
  queue : List (Nat × Nat) := []
  deriving DecidableEq, Repr

/-- A node of the commit tree of a step record (R531). -/
structure StepRun where
  core : Nat
  id : Nat
  /-- ARG of the READY messages that have arrived, by rank of the child -/
  got : Tab Nat := []
  /-- status of the WAIT part, once it has ended -/
  own : Option Nat := none
  collectTurn : Nat := 0
  sentTurn : Nat := 0
  /-- its READY carried FAIL (R533) -/
  sentFail : Bool := false
  deriving DecidableEq, Repr

/-- The Sill (18_silent_errors_and_the_sill.md). -/
structure SillSt where
  retired : List SillEnt := []
  /-- commands that will never cross or that failed: (identity, core, context, code) (R528) -/
  outcomes : List (Nat × Nat × Ctx × Nat) := []
  /-- budgeted programs of which a command that retired with 0x00 never crosses (R302, R517, R525) -/
  lost : List Nat := []
  prov : Tab ProvEnt := []
  nextProv : Nat := 0
  spares : Tab Spare := []
  /-- tiles that wait for the replay of their chains, oldest first (R150) -/
  redo : List Redo := []
  /-- eligible commands counted, and whether one is due for a sample, by logical core (R523) -/
  eligible : Tab Nat := []
  due : Tab Unit := []
  steps : Tab StepRun := []
  /-- physical cores out of service that still carry a logical slot (R538) -/
  leaving : Tab Unit := []
  deriving DecidableEq, Repr

/-- A CAPTURE in progress (R553): its command, the instance, the byte offset of the weights in device memory, elements
wanted and elements written. -/
structure Capture where
  core : Nat
  id : Nat
  group : Nat
  inst : Nat
  epoch : Nat := 0
  lo : Nat
  elems : Nat
  written : Nat := 0
  deriving DecidableEq, Repr

/-- What a Shutter record holds beside its fields (19_shutter_snapshots_and_recovery.md). -/
structure ShutSt where
  /-- AREA, WPAGES, MPAGES, APAGES and KEEPS of the last enable (R550) -/
  last : Option (Nat × Nat × Nat × Nat × Nat) := none
  caps : List Capture := []
  /-- SERVE and STREAM commands that read a bank: core, command, bank -/
  readers : List (Nat × Nat × Nat) := []
  /-- filling bank of the take; its SEND retired with 0x00; a SHUT command of it failed (R555) -/
  bank : Nat := 0
  sendOk : Bool := false
  failed : Bool := false
  /-- turns of the last Shutter and ordinary steps, newest first; turn of the last outcome; steps since enable; the step
  counts at which RESTORES rose (R558) -/
  shutDur : List Nat := []
  ordDur : List Nat := []
  lastTurn : Option Nat := none
  steps : Nat := 0
  restores : List Nat := []
  deriving DecidableEq, Repr

/-- Module flash (R589): what has been written since manufacture; `none` is the content as manufactured. -/
structure FlashSt where
  /-- start record (R577) -/
  warmFails : Nat := 0
  coldFails : Nat := 0
  /-- CAUSE, FAIL_STEP, STR_STARTS and SLOT_BAD, which R584 and R602 take from flash -/
  cause : Nat := 0
  failStep : Nat := 0
  starts : Nat := 0
  slotBad : Bool := false
  /-- a supply of a configuration record failed in pass 2 or 3 (R580) -/
  configBad : Bool := false
  image : Option (List Byte) := none
  config : Option (List Byte) := none
  deriving DecidableEq, Repr

/-- The fetch of an image or record in the recovery stand (R580). -/
structure RecSt where
  /-- STATE, PASS and ERR of REC_STATUS -/
  state : Nat := 0
  pass : Nat := 0
  err : Nat := 0
  op : Nat := 0
  port : Nat := 0
  addr : Nat := 0
  len : Nat := 0
  /-- 4 KiB pieces of the present pass that have arrived, and what pass 1 read -/
  got : Tab (List Byte) := []
  first : List Byte := []
  deriving DecidableEq, Repr

/-- A mailbox (R603); MBX_LEN and DATA are in `State.regs`. -/
structure Mbx where
  /-- 0 IDLE, 1 BUSY, 2 DONE -/
  st : Nat := 0
  result : Nat := 0
  deriving DecidableEq, Repr

/-- Starts, Tumbler and the management endpoints (20_starting_the_device.md to 22_management_and_fault_records.md, 24). -/
structure StartSt where
  /-- the input switch is closed (R649) -/
  input : Bool := false
  /-- SB_REFCLK is present, and the clock generator runs on its holdover oscillator (R654); H0_REFCLK is `HostPort.ref` -/
  sbRef : Bool := false
  holdover : Bool := false
  /-- STEP, KIND, READY and BAD_STACK of STR_STATUS (R584) -/
  step : Nat := 0
  kind : Nat := 0
  ready : Bool := false
  badStack : Nat := 0
  /-- a start is in progress; die power is off between two cold attempts (R577) -/
  busy : Bool := false
  dieOff : Bool := false
  /-- protected SRAM: the Joinery measurement and length recorded at step 4, the attestation key (R572, R591) -/
  pufOk : Bool := false
  imageOk : Bool := false
  configOk : Bool := false
  digest : List Byte := []
  svn : Nat := 0
  akKey : Nat := 0
  /-- a new image awaits the next cold start; pass 2 or 3 of a staging is under way (R604, R605) -/
  staged : Bool := false
  staging : Bool := false
  rec_ : RecSt := {}
  mbx : Tab Mbx := []
  /-- SPDM exchanges by channel: 0 none, 1 after GET_VERSION, 2 after GET_CAPABILITIES, 3 after NEGOTIATE_ALGORITHMS -/
  spdm : Tab Nat := []
  /-- MCTP endpoint identifiers by binding: 0 I3C, 1 H0, 2 H1 (R607), and the I3C dynamic address (R608) -/
  eids : Tab Nat := []
  i3c : Option Nat := none
  /-- PLDM terminus identifier (R611) -/
  tid : Nat := 0
  deriving DecidableEq, Repr

/-- An entry of the fault record (R617). -/
structure FltEntry where
  stamp : Nat
  turn : Nat
  source : Nat
  sev : Nat
  cause : Nat
  rep : Nat
  loc : Nat
  addr : Nat
  seq : Nat
  deriving DecidableEq, Repr

/-- The fault record, sensors and throttle (22_management_and_fault_records.md). -/
structure FltSt where
  head : Nat := 0
  count : Nat := 0
  seq : Nat := 0
  /-- entries by slot -/
  entries : Tab FltEntry := []
  /-- occurrences of the cycle under way, which take entries as it ends (R619, R620) -/
  due : List FltEntry := []
  /-- DUTY by panel, 16 where not listed; throttled core-cycles below a unit of 256 (R614) -/
  duty : Tab Nat := []
  thrSub : Nat := 0
  /-- the shutdown of R615 has happened -/
  shutdown : Bool := false
  /-- sequence numbers of entries not yet copied to flash, oldest first (R621) -/
  toCopy : List Nat := []
  /-- flash copy: slot to entry and acknowledged bit (R621) -/
  flash : Tab (FltEntry × Bool) := []
  flashNext : Nat := 0
  /-- bindings whose receivers are registered by SetEventReceiver (R622): 0 I3C, 1 H0, 2 H1 -/
  receivers : List Nat := []
  /-- a cold start has happened since entries were last exported again from the copy (R621) -/
  again : Bool := false
  /-- warning thresholds changed by SetSensorThresholds: by 2 × sensor + side, × 16 -/
  warn : Tab Int := []
  deriving DecidableEq, Repr

/-- The Z8. -/
structure State where
  /-- commands that wait, first in, first out (the model's own field) -/
  pending : List Instr := []
  /-- core cycles since reset (R221) -/
  cycles : Nat := 0
  /-- quarter nanoseconds since step 1 of the current cold attempt: the timestamp is a quarter of it (R640) -/
  now4 : Nat := 0
  /-- draws made so far from the values that the spec leaves open (the model's own field) -/
  drawn : Nat := 0
  /-- what has left the connectors, newest first (the model's own field) -/
  out : List Output := []
  /-- device memory: HBM and the record areas, by device physical address; unlisted bytes read 0 -/
  mem : List Host.Cell := []
  /-- 64-byte blocks of HBM whose POISON is set, by block number (R347) -/
  poison : Tab Unit := []
  /-- stored registers by BAR0 offset -/
  regs : Tab Word := []
  /-- captured high halves by BAR0 offset (R21) -/
  cap : Tab Word := []
  latch : LatchSt := {}
  turn : TurnSt := {}
  /-- logical cores (0 to 127) -/
  log : Tab LCore := []
  /-- physical cores (0 to 135) -/
  phys : Tab Phys := []
  /-- physical core of each logical core where it differs from the start map; `none` when it is not present (R10) -/
  coreMap : Tab (Option Nat) := []
  /-- panel-cache lines by 2^40 × panel + line number (R203) -/
  pcache : Tab PLine := []
  nextCmd : Nat := 1
  mc : MemSt := {}
  host : HostSt := {}
  flt : FltSt := {}
  start : StartSt := {}
  flash : FlashSt := {}
  sill : SillSt := {}
  ports : Tab Port := []
  msg : MsgSt := {}
  rings : Tab RingSt := []
  pools : Tab PoolSt := []
  reds : Tab RedTree := []
  groups : GroupSt := {}
  shut : Tab ShutSt := []
  seq : SeqSt := {}
  /-- pre-emption by logical core -/
  pre : Tab CorePre := []
  deriving DecidableEq, Repr

/-- The machine right after reset: every register at its Reset column, memory with nothing listed. -/
def State.reset : State := {}

end Sys2Proof.Machine
end

