-- ==== Sys2Proof/Machine/Ops.lean ====
section
/-!
DEFINITION. Machine/Ops.lean: the named operations that every family uses: stored registers and their fields, draws of
open values, time, the core map, interrupts and MSI-X, the fault record, and device memory.
-/
namespace Sys2Proof.Machine

/-! ### Stored registers -/

/-- The stored value of a register. -/
def State.reg (s : State) (off : Nat) : Word := s.regs.get (regReset off) off

/-- Stores a register. -/
def State.setReg (s : State) (off : Nat) (v : Word) : State := { s with regs := s.regs.put off v }

/-- Field [lo + w − 1 : lo] of a stored register. -/
def State.fld (s : State) (off lo w : Nat) : Nat := bits (s.reg off) lo w

/-- Stores one field of a register. -/
def State.setFld (s : State) (off lo w v : Nat) : State := s.setReg off (setBits (s.reg off) lo w v)

/-- Adds `n` to a counting field, which stops at its largest value. -/
def State.bumpFld (s : State) (off lo w n : Nat) : State := s.setFld off lo w (satAdd w (s.fld off lo w) n)

/-- Adds `n` to a 32-bit counter register. -/
def State.bump (s : State) (off n : Nat) : State := s.bumpFld off 0 32 n

/-! ### Open values, time, outputs -/

/-- The next draw of `w` open bits. -/
def State.draw (s : State) (w : Nat) : BitVec w := Config.freeValue w s.drawn

/-- Counts the draw. -/
def State.drew (s : State) : State := { s with drawn := s.drawn + 1 }

/-- The timestamp in ns (R640). -/
def State.time (s : State) : Nat := s.now4 / 4 % 2 ^ 64

/-- The turn number (R20). -/
def State.turnNo (s : State) : Nat := s.turn.num.toNat

/-- Sends something out of a connector. -/
def State.emit (s : State) (o : Output) : State := { s with out := o :: s.out }

/-- Sends something to a management controller or agent on binding or channel `b`: the I3C target (0) raises an in-band
interrupt for it (R608). -/
def State.emitMgmt (s : State) (b : Nat) (o : Output) : State :=
  if b = 0 then (s.emit o).emit (.ibi 0xAE) else s.emit o

/-- Whether a requester's accesses are heard at all: a host's meet Request Retry Status until ready (R582), and reach nothing
while the port is in D3hot (R458). -/
def State.hears (s : State) (r : Requester) : Bool :=
  match r.port? with
  | none => true
  | some p => s.start.ready && !s.flt.shutdown && !(s.host.ports.get {} p).d3hot

/-! ### Cores -/

/-- The physical core that carries logical core `l` (R10); the start map is slot s on position s. -/
def State.physOf (s : State) (l : Nat) : Option Nat :=
  if l < 128 then (s.coreMap.get (some (17 * (l / 16) + l % 16)) l) else none

/-- Whether logical core `l` is present. -/
def State.present (s : State) (l : Nat) : Bool := (s.physOf l).isSome

/-- Logical cores present. -/
def State.presentCores (s : State) : Nat := ((upTo 128).filter s.present).length

/-- CAP_CORES (R32, R46). -/
def State.capCores (s : State) : Nat := s.turn.capCount

/-- The logical core that physical core `i` carries. -/
def State.logOf (s : State) (i : Nat) : Option Nat := (upTo 128).find? (fun l => s.physOf l == some i)

/-- Logical core `l`. -/
def State.core (s : State) (l : Nat) : LCore := s.log.get {} l

def State.setCore (s : State) (l : Nat) (c : LCore) : State := { s with log := s.log.put l c }

/-- The physical core under logical core `l`; where none is present, the index beyond the last. -/
def State.under (s : State) (l : Nat) : Nat := (s.physOf l).getD 136

/-- Physical core `i`. -/
def State.phy (s : State) (i : Nat) : Phys := s.phys.get {} i

def State.setPhy (s : State) (i : Nat) (p : Phys) : State := { s with phys := s.phys.put i p }

/-- The module serves management only (R541, R352, R615): nothing more is admitted. -/
def State.closed (s : State) : Bool := s.fld Reg.fltRepl 5 1 == 1 || s.flt.shutdown

/-! ### Interrupts (R642 to R645) -/

/-- MSX_VCTL and the other words of vector `v` of a port. -/
def msxBase (port v : Nat) : Nat := 0x200000 + 0x10000 * port + 16 * v

/-- The pending-bit word that holds vector `v`. -/
def pbaReg (port v : Nat) : Nat := 0x208000 + 0x10000 * port + 4 * (v / 32)

/-- A host port. -/
def State.hport (s : State) (p : Nat) : HostPort := s.host.ports.get {} p

def State.setHport (s : State) (p : Nat) (h : HostPort) : State :=
  { s with host := { s.host with ports := s.host.ports.put p h } }

/-- Whether a message on vector `v` is masked (R643). -/
def State.msiMasked (s : State) (port v : Nat) : Bool :=
  s.fld (msxBase port v + 12) 0 1 == 1 || (s.hport port).funcMask

/-- Sends the message of vector `v`. -/
def State.sendMsi (s : State) (port v : Nat) : State :=
  let b := msxBase port v
  s.emit (.msix port ((s.reg b).toNat + 2 ^ 32 * (s.reg (b + 4)).toNat) (s.reg (b + 8)))

/-- A message is due on vector `v`: sent, or its pending bit set while masked (R643). -/
def State.msiDue (s : State) (port v : Nat) : State :=
  if s.msiMasked port v then s.setFld (pbaReg port v) (v % 32) 1 1 else s.sendMsi port v

/-- Event and enable registers of source `k` (R644). -/
def srcRegs (k : Nat) : Nat × Nat :=
  if k = 0 then (Reg.trnEvent, Reg.trnIrqEn)
  else if k = 1 then (Reg.memEvent, Reg.memIrqEn)
  else if k = 2 then (Reg.fltEvent, Reg.fltIrqEn)
  else if k = 3 then (Reg.silEvent, Reg.silIrqEn)
  else if k = 4 then (Reg.shtEvent, Reg.shtIrqEn)
  else if k = 5 then (Reg.seqEvent, Reg.seqIrqEn)
  else if k < 16 then (lnkBase (k - 8) + 8, lnkBase (k - 8) + 12)
  else (ctxWin (k - 16) + 4, ctxWin (k - 16) + 12)

/-- Whether source `k` is asserted: its event register AND its enable register is not zero (R644). -/
def State.asserted (s : State) (k : Nat) : Bool :=
  (s.reg (srcRegs k).1 &&& s.reg (srcRegs k).2) != 0

/-- The route of source `k` makes a message due when its EN is 1 (R644). -/
def State.route (s : State) (k : Nat) : State :=
  let r := Reg.msxRoute k
  if s.fld r 12 1 == 1 then s.msiDue (s.fld r 11 1) (s.fld r 0 11) else s

/-- `s'` after a change of registers of source `k` in `s`: a rise of the source makes its message due; the fault source
also drives MOD_ALERT_N low while it is asserted (R608). -/
def srcChange (k : Nat) (s s' : State) : State :=
  let s'' := if k = 2 ∧ s.asserted k ≠ s'.asserted k then s'.emit (.pin "MOD_ALERT_N" (!s'.asserted k)) else s'
  if !s.asserted k && s'.asserted k then s''.route k else s''

/-- Sets event bit `b` of source `k`. -/
def State.raise (s : State) (k b : Nat) : State := srcChange k s (s.setFld (srcRegs k).1 b 1 1)

/-! ### The fault record (R617 to R623) -/

/-- The 32 bytes of an entry (R617). -/
def FltEntry.bytes (e : FltEntry) : List Byte :=
  toBytes 8 e.stamp
    ++ toBytes 8 (e.turn % 2 ^ 48 + e.source * 2 ^ 48 + e.sev * 2 ^ 56 + 2 ^ 59)
    ++ toBytes 2 e.cause ++ toBytes 2 e.rep ++ toBytes 4 e.loc ++ toBytes 6 e.addr ++ toBytes 2 e.seq

/-- STR_STATUS (R584). -/
def State.strStatus (s : State) : Word :=
  BitVec.ofNat 32 (s.start.step % 16 + s.start.kind * 2 ^ 4 + b2n s.start.ready * 2 ^ 6 + s.flash.warmFails * 2 ^ 8
    + s.flash.coldFails * 2 ^ 10 + s.flash.cause % 16 * 2 ^ 12 + s.flash.failStep % 16 * 2 ^ 16 + s.start.badStack % 32 * 2 ^ 20)

/-- The 96-byte vendor section of an entry's CPER record (R623). -/
def State.vendorSection (s : State) (e : FltEntry) : List Byte :=
  let panels := (upTo 8).foldl (fun a p => a + s.fld (Reg.silPanel p) 0 2 * 4 ^ p) 0
  toBytes 2 1 ++ toBytes 2 96 ++ toBytes 4 0
    ++ ((upTo 4).flatMap (fun k => toBytes 4 (s.reg (8 + 4 * k)).toNat))
    ++ toBytes 4 (s.reg 4).toNat ++ toBytes 4 (s.reg Reg.fltRepl).toNat ++ e.bytes ++ toBytes 4 e.seq
    ++ toBytes 2 panels ++ toBytes 2 0 ++ toBytes 4 (s.reg Reg.secCfg).toNat ++ toBytes 4 (s.reg Reg.secSvn).toNat
    ++ toBytes 4 s.strStatus.toNat ++ toBytes 4 s.flash.starts ++ toBytes 8 0

/-- Creator ID and Notification Type of an exported record (R622). -/
def cperCreator : String := "7C2E91B4-3D58-4A6F-B0E1-59A3C7D24F87"

/-- Section Type of its one section (R622). -/
def cperSection : String := "7C2E91B4-3D58-4A6F-B0E1-59A3C7D24F86"

/-- Reports an entry to every registered receiver (R622). -/
def State.reportCper (s : State) (e : FltEntry) : State :=
  let sev := if e.sev = 0 then 3 else if e.sev = 4 then 1 else 0
  s.flt.receivers.foldl (fun s b =>
    s.emitMgmt b (.cper b cperCreator cperCreator sev cperSection "Zhevtus Z8" (s.vendorSection e))) s

/-- Whether n is a power of two. -/
def isPow2 (n : Nat) : Bool := n != 0 && 2 ^ Nat.log2 n == n

/-- Takes a new entry, or counts the occurrence in FLT_OVERFLOW when the record is too full for it (R619). -/
def State.place (s : State) (e : FltEntry) : State :=
  if s.flt.count ≥ 256 || (s.flt.count ≥ 248 && e.sev < 3) then (s.bump Reg.fltOverflow 1).raise 2 1
  else
    let slot := (s.flt.head + s.flt.count) % 256
    let e := { e with seq := s.flt.seq }
    let s := { s with flt := { s.flt with
      entries := s.flt.entries.put slot e, count := s.flt.count + 1, seq := (s.flt.seq + 1) % 2 ^ 32,
      toCopy := s.flt.toCopy ++ [e.seq] } }
    (s.raise 2 0).reportCper e

/-- Whether occurrence `x` joins the entry `e` (R619): the same SOURCE, LOC and CAUSE, within 1 s of its STAMP. -/
def FltEntry.joins (x e : FltEntry) : Bool :=
  e.source == x.source && e.loc == x.loc && e.cause == x.cause && decide (x.stamp ≤ e.stamp + 1000000000)

/-- Coalesces an occurrence with the newest valid entry, or places it (R619). -/
def State.recordFault (s : State) (x : FltEntry) : State :=
  let newest := (s.flt.head + s.flt.count + 255) % 256
  match (if s.flt.count = 0 then none else s.flt.entries.find? newest) with
  | some e =>
    if x.joins e then
      let e' := { e with rep := satAdd 16 e.rep 1 }
      let s' := { s with flt := { s.flt with entries := s.flt.entries.put newest e' } }
      if isPow2 e'.rep then s'.reportCper e' else s'
    else s.place x
  | none => s.place x

/-- Whether occurrence `x` takes its entry before `y` of the same cycle (R619): ascending SOURCE, then ascending LOC. -/
def FltEntry.before (x y : FltEntry) : Bool := decide (x.source < y.source) || (x.source == y.source && decide (x.loc < y.loc))

/-- A list in that order with one more occurrence, after those that do not come after it. -/
def FltEntry.insert (x : FltEntry) : List FltEntry → List FltEntry
  | [] => [x]
  | y :: l => if x.before y then x :: y :: l else y :: x.insert l

/-- An occurrence (R617, R619): it takes its entry as the cycle ends, so an FLT_CLEAR of this cycle does not clear it (R620). -/
def State.fault (s : State) (source sev cause loc addr : Nat) : State :=
  let x : FltEntry :=
    { stamp := s.time, turn := s.turnNo, source := source, sev := sev, cause := cause % 2 ^ 16, rep := 0,
      loc := loc % 2 ^ 32, addr := addr % 2 ^ 48, seq := 0 }
  { s with flt := { s.flt with due := x.insert s.flt.due } }

/-- The cycle ends: its occurrences take their entries (R619). -/
def State.placeDue (s : State) : State :=
  s.flt.due.foldl (fun s x => s.recordFault x) { s with flt := { s.flt with due := [] } }

/-- Sets a cause bit of the sticky replacement request (R616). -/
def State.replace (s : State) (causeBit : Nat) : State :=
  let was := s.fld Reg.fltRepl 0 1
  let s := (s.setFld Reg.fltRepl causeBit 1 1).setFld Reg.fltRepl 0 1 1
  if was = 1 then s
  else
    let s := s.raise 2 2
    s.flt.receivers.foldl (fun s b => s.emitMgmt b (.sensorEvent b 29 1)) s

/-! ### Device memory -/

/-- The byte that memory holds at `a`; an unlisted byte reads 0 (R354). -/
def memGet (m : List Host.Cell) (a : Nat) : Byte := Tab.get 0 m a

/-- Memory with byte `b` at `a`, in canonical form: a 0 is not listed. -/
def memPut (m : List Host.Cell) (a : Nat) (b : Byte) : List Host.Cell := if b = 0 then Tab.drop m a else Tab.put m a b

/-- The canonical form: addresses rise strictly and no entry is what an unlisted byte reads as. -/
def Memory.wf (m : List Host.Cell) : Bool := Tab.rising m && m.all (fun c => c.2 != 0)

/-- Memory with the bytes `bs` from `a` on. -/
def memPuts (m : List Host.Cell) (a : Nat) : List Byte → List Host.Cell
  | [] => m
  | b :: r => memPuts (memPut m a b) (a + 1) r

/-- The `n` bytes from `a` on. -/
def memGets (m : List Host.Cell) (a n : Nat) : List Byte := (upTo n).map (fun i => memGet m (a + i))

def State.peek (s : State) (a n : Nat) : List Byte := memGets s.mem a n

/-- The `n` bytes at `a` as a number. -/
def State.peekN (s : State) (a n : Nat) : Nat := ofBytes (s.peek a n)

def State.poke (s : State) (a : Nat) (bs : List Byte) : State := { s with mem := memPuts s.mem a bs }

def State.pokeN (s : State) (a n v : Nat) : State := s.poke a (toBytes n v)

/-- Field [lo + w − 1 : lo] of the 64-bit word of a record at `a`. -/
def State.rec_ (s : State) (a lo w : Nat) : Nat := s.peekN a 8 / 2 ^ lo % 2 ^ w

/-- Writes one field of a record, the other bits of its bytes unchanged. -/
def State.setRec (s : State) (a lo w v : Nat) : State :=
  s.pokeN a 8 (setBits (BitVec.ofNat 64 (s.peekN a 8)) lo w v).toNat

/-- Adds to a counting field of a record, which stops at its largest value. -/
def State.bumpRec (s : State) (a lo w n : Nat) : State := s.setRec a lo w (satAdd w (s.rec_ a lo w) n)

/-- End of HBM (R345). -/
def hbmEnd : Nat := 0xC000000000

/-- Where a byte of HBM is stored (R345): pseudo-channel, bank (16 × sid + 4 × bg + ba), row. -/
structure HbmLoc where
  pc : Nat
  bank : Nat
  row : Nat
  deriving DecidableEq, Repr

/-- Rotates the low 10 bits left. -/
def rotl10 (x n : Nat) : Nat := (x * 2 ^ n ||| x / 2 ^ (10 - n)) % 1024

/-- hbm_map (R345). -/
def hbmMap (a : Nat) : HbmLoc :=
  let lo := a / 2 ^ 8 % 1024
  let h1 := a / 2 ^ 18 % 1024
  let h2 := a / 2 ^ 28 % 1024
  let h3 := a / 2 ^ 38 % 4
  let l := a / 2 ^ 18
  { pc := lo ^^^ h1 ^^^ rotl10 h2 5 ^^^ (h3 * 0x155)
    bank := l / 2 ^ 6 % 2 * 16 + ((l / 4 ^^^ l / 2 ^ 7) % 4) * 4 + ((l / 16 ^^^ l / 2 ^ 9) % 4)
    row := l / 2 ^ 7 }

/-- The partition that owns the 1 GiB range of address `a` (R357, R367). -/
def State.rangeOwner (s : State) (a : Nat) : Option Nat :=
  let i := a / 2 ^ 30
  let r := 0x301000 + 8 * (i / 4)
  let b := 8 * (i % 4)
  if a < hbmEnd ∧ s.fld r (b + 4) 1 = 1 then some (s.fld r b 4) else none

/-- Whether partition `p` is assigned, and its owning host: 0 none, 1 H0, 2 H1 (R367). -/
def State.partValid (s : State) (p : Nat) : Bool := s.fld (0x300400 + 8 * p) 2 1 == 1
def State.partHost (s : State) (p : Nat) : Nat := if s.partValid p then s.fld (0x300400 + 8 * p) 0 2 else 0

/-- Whether the `n` bytes from `a` lie in HBM ranges that partition `p` owns. -/
def State.inPart (s : State) (p a n : Nat) : Bool :=
  decide (a + n ≤ hbmEnd) &&
    (n == 0 || (upTo ((a + n - 1) / 2 ^ 30 - a / 2 ^ 30 + 1)).all
      (fun i => s.rangeOwner ((a / 2 ^ 30 + i) * 2 ^ 30) == some p))

/-- Whether block `b` is poisoned. -/
def State.poisoned (s : State) (b : Nat) : Bool := (s.poison.find? b).isSome

def State.setPoison (s : State) (b : Nat) : State := { s with poison := s.poison.put b () }
def State.clearPoison (s : State) (b : Nat) : State := { s with poison := s.poison.drop b }

/-- State code of the pseudo-channel of an address (R352). -/
def State.pcState (s : State) (pc : Nat) : Nat := s.fld (Reg.memPc pc) 0 2

/-- Counts blocks served for a partition, in units of 4,096 blocks (R366). -/
def State.served (s : State) (p n : Nat) : State :=
  let t := s.mc.servedSub.get 0 p + n
  let s := { s with mc := { s.mc with servedSub := s.mc.servedSub.put p (t % 4096) } }
  if t ≥ 4096 then s.bump (rglBase p + 8) (t / 4096) else s

/-- What one read of HBM gives: the bytes, and whether a block of them is poisoned. -/
structure MemRead where
  bytes : List Byte
  bad : Bool
  st : State

/-- Reads the part of one block that starts at `a`, `n` bytes of it, for partition `p` (R348, R349, R352, R358). -/
def State.readPiece (s : State) (p : Option Nat) (a n : Nat) : MemRead :=
  let foreign := match p with
    | none => false
    | some p => s.rangeOwner a != some p
  if foreign then
    let s := (s.raise 1 8).fault 0x06 2 0 (p.getD 0) a
    { bytes := List.replicate n 0xFF, bad := true, st := s }
  else
    let s := match p with
      | none => s
      | some p => s.served p 1
    let bad := s.poisoned (a / 64) || s.pcState (hbmMap a).pc == 3
    let s := if bad then s.fault 0x04 2 2 (hbmMap a).pc (a / 64 * 64) else s
    { bytes := s.peek a n, bad := bad, st := s }

/-- Splits `n` bytes from `a` at the 64-byte block boundaries: the (address, length) pieces. `fuel` bounds their number. -/
def pieces (a n : Nat) : Nat → List (Nat × Nat)
  | 0 => []
  | fuel + 1 =>
    if n = 0 then []
    else
      let k := min n (64 - a % 64)
      (a, k) :: pieces (a + k) (n - k) fuel

/-- Reads `n` bytes of HBM from `a`, block by block. -/
def State.readHbm (s : State) (p : Option Nat) (a n : Nat) : MemRead :=
  (pieces a n (n / 64 + 2)).foldl
    (fun r pc =>
      let x := r.st.readPiece p pc.1 pc.2
      { bytes := r.bytes ++ x.bytes, bad := r.bad || x.bad, st := x.st })
    { bytes := [], bad := false, st := s }

/-- Base of the tracked-region records (R380). -/
def regionRec (i : Nat) : Nat := 0xF000200000 + 0x20 * i

/-- Adds 1 to GEN of every enabled tracked region that holds block address `a` (R381). -/
def State.countRegions (s : State) (a : Nat) : State :=
  let on := s.mem.filter (fun c => decide (0xF000200000 ≤ c.1) && decide (c.1 < 0xF000220000) && c.1 % 32 == 0 && c.2.getLsbD 0)
  on.foldl
    (fun s c =>
      let base := s.rec_ (c.1 + 8) 0 48
      let pages := s.rec_ (c.1 + 16) 0 32
      if base ≤ a ∧ a < base + 4096 * pages then s.setRec (c.1 + 16) 32 32 (s.rec_ (c.1 + 16) 32 32 + 1) else s)
    s

/-- Writes bytes into one block for partition `p` (R350, R352, R358): a whole block clears POISON, a part leaves it. -/
def State.writePiece (s : State) (p : Option Nat) (a : Nat) (bs : List Byte) : State :=
  let foreign := match p with
    | none => false
    | some p => s.rangeOwner a != some p
  if foreign then (s.raise 1 8).fault 0x06 2 0 (p.getD 0) a
  else
    let s := match p with
      | none => s
      | some p => s.served p 1
    if s.pcState (hbmMap a).pc == 3 then s
    else
      let s := if bs.length = 64 then s.clearPoison (a / 64) else s
      (s.poke a bs).countRegions (a / 64 * 64)

/-- Writes bytes to HBM from `a`, block by block. -/
def State.writeHbm (s : State) (p : Option Nat) (a : Nat) (bs : List Byte) : State :=
  ((pieces a bs.length (bs.length / 64 + 2)).foldl
    (fun (r : State × List Byte) pc => (r.1.writePiece p pc.1 (r.2.take pc.2), r.2.drop pc.2))
    (s, bs)).1

end Sys2Proof.Machine
end

