-- ==== Sys2Proof/Machine/Latch.lean ====
section
/-!
DEFINITION. Machine/Latch.lean: the Latch (R631 to R634) and the Deadbolt sequence (R635 to R637), as every block uses them.
-/
namespace Sys2Proof.Machine

/-- The Latch group of the LW fields of the register at `off` (R631). -/
def State.lwGroup (s : State) (off : Nat) : Nat :=
  if off < 0x20000 then s.fld Reg.lchFixgrp 0 4
  else if off < 0x300000 then s.fld off 8 4
  else if off = Reg.memSched then s.fld Reg.lchFixgrp 4 4
  else s.fld (off - off % 0x10) 16 4

/-- Groups that hold a pending value (LCH_PENDING). -/
def State.pendingGroups (s : State) : BitVec 16 :=
  s.latch.pend.foldl (fun m p => m ||| BitVec.ofNat 16 (2 ^ s.lwGroup p.1)) 0

/-- Holds the LW bits `mask` of a write of `v` pending (R627, R631): the last write before a strobe stands. -/
def State.pendLw (s : State) (off : Nat) (mask v : Word) : State :=
  if mask = 0 then s
  else { s with latch := { s.latch with
    pend := s.latch.pend.put off { mask := mask, val := v &&& mask }, arrived := off :: s.latch.arrived } }

/-- Limit of a partition's bucket in 1/4,096 block (R359, R366). -/
def State.burst (s : State) (p : Nat) : Nat := max 1 (s.fld (rglBase p + 4) 0 16) * 4096

/-- SHARE in force: larger values act as 1,024 (R366). -/
def State.share (s : State) (p : Nat) : Nat := min 1024 (s.fld (rglBase p) 0 11)

def State.regulated (s : State) (p : Nat) : Bool := s.fld (rglBase p) 11 1 == 1

/-- Sum of the SHARE values of regulated partitions (R359). -/
def State.shareSum (s : State) : Nat :=
  (upTo 16).foldl (fun a p => if s.regulated p then a + s.share p else a) 0

/-- What a bucket gains per cycle (R359). -/
def State.refill (s : State) (p : Nat) : Nat :=
  if s.shareSum > 1024 then 3 * s.share p * 1024 / s.shareSum else 3 * s.share p

/-- A bucket brought up to the present cycle (R359). -/
def State.bucketNow (s : State) (p : Nat) (b : Bucket) : Bucket :=
  { tokens := min (s.burst p) (b.tokens + s.refill p * (s.cycles - b.at_)), at_ := s.cycles }

/-- Every bucket brought up to the present cycle, so that a change of SHARE keeps what it holds (R361). -/
def State.settleBuckets (s : State) : State :=
  { s with mc := { s.mc with buckets := s.mc.buckets.map (fun b => (b.1, s.bucketNow (b.1 % 16) b.2)) } }

/-- Applies the pending values of the groups of `m` in one cycle, but for those that arrived in that cycle (R632). -/
def State.strobe (s : State) (m : BitVec 16) : State :=
  let inM (off : Nat) : Bool := m.getLsbD (s.lwGroup off) && !s.latch.arrived.contains off
  let past := decide (s.shareSum > 1024)
  let s₀ := s.settleBuckets
  let s₁ : State := (s.latch.pend.filter (fun p => inM p.1)).foldl
    (fun s p => s.setReg p.1 ((s.reg p.1 &&& ~~~p.2.mask) ||| p.2.val)) s₀
  let s₂ : State := { s₁ with latch := { s₁.latch with pend := s.latch.pend.filter (fun p => !inM p.1) } }
  if !past && decide (s₂.shareSum > 1024) then s₂.raise 1 7 else s₂

/-- OWNER of Latch group `g` (R641). -/
def State.groupOwner (s : State) (g : Nat) : Nat := s.fld Reg.lchOwn (2 * g) 2

/-- Whether a requester owns Latch group `g`: Joinery and Tumbler may strobe any (R632). -/
def State.ownsGroup (s : State) (r : Requester) (g : Nat) : Bool :=
  match r with
  | .h0 => s.groupOwner g == 1 || s.groupOwner g == 3
  | .h1 => s.groupOwner g == 2 || s.groupOwner g == 3
  | _ => true

/-- The bits of mask `m` whose groups the requester owns. -/
def State.ownedBits (s : State) (r : Requester) (m : BitVec 16) : BitVec 16 :=
  (upTo 16).foldl (fun a g => if m.getLsbD g && s.hears r && s.ownsGroup r g then a ||| BitVec.ofNat 16 (2 ^ g) else a) 0

/-- Set bits of a mask. -/
def count16 (m : BitVec 16) : Nat := ((upTo 16).filter m.getLsbD).length

/-- LATCH_STROBE (R632): strobes the permitted groups; the others count in LCH_IGNORED. -/
def execLatchStrobe (r : Requester) (m : BitVec 16) (s : State) : Host.Outcome State Fault Refusal :=
  if !s.hears r then .next s
  else
  let mine := s.ownedBits r m
  .next ((s.strobe mine).bumpFld Reg.lchIgnored 0 16 (count16 (m &&& ~~~mine)))

/-- The groups that the requester does not own (R633). -/
def State.foreignGroups (s : State) (r : Requester) : BitVec 16 := ~~~s.ownedBits r (BitVec.allOnes 16)

/-- LATCH_TICK_ARM (R633): replaces the armed state of the requester's own groups. -/
def execLatchTickArm (r : Requester) (m : BitVec 16) (s : State) : Host.Outcome State Fault Refusal :=
  if !s.hears r then .next s
  else
  let mine := s.ownedBits r m
  let s' := { s with latch := { s.latch with tick := (s.latch.tick &&& s.foreignGroups r) ||| mine } }
  .next (s'.bumpFld Reg.lchIgnored 0 16 (count16 (m &&& ~~~mine)))

/-- The strobe of the tick-armed groups in the last cycle before a tick (R633). -/
def State.tickStrobe (s : State) : State :=
  let s' := s.strobe s.latch.tick
  { s' with latch := { s'.latch with tick := 0 } }

/-- The cycle ends: what arrived in it is no longer of the present cycle (R626, R632). -/
def State.latchCycle (s : State) : State := { s with latch := { s.latch with arrived := [], writes := [] } }

/-- A failed pair: counted, and recorded in DB_LAST (R636). -/
def State.dbFail (s : State) (off reason : Nat) (r : Requester) : State :=
  (s.bumpFld Reg.dbFailCount 0 16 1).setReg Reg.dbLast
    (BitVec.ofNat 32 (off % 2 ^ 24 + reason * 2 ^ 24 + r.code * 2 ^ 27))

def State.setDb (s : State) (d : Option DbPend) : State := { s with latch := { s.latch with db := d } }

/-- A value half arrives at a DB register (R635, R636): it opens a pair, or intervenes in the one that is open. -/
def State.dbValue (s : State) (r : Requester) (reg : DbReg) (v : Word) : State :=
  if !s.hears r then s
  else match s.latch.db with
  | none => s.setDb (some { reg := reg, val := v, by_ := r })
  | some _ => (s.setDb none).dbFail reg.off 1 r

/-- A complement half arrives (R635, R636): the value that the pair completes with, if it does, and the state with the
pair closed and a failure counted. -/
def State.dbComplement (s : State) (r : Requester) (reg : DbReg) (c : Word) : Option Word × State :=
  if !s.hears r then (none, s)
  else match s.latch.db with
  | none => (none, s.dbFail (reg.off + 4) 4 r)
  | some p =>
    if p.reg = reg ∧ p.by_ = r then
      if c = ~~~p.val then (some p.val, s.setDb none) else (none, (s.setDb none).dbFail (reg.off + 4) 3 r)
    else (none, (s.setDb none).dbFail (reg.off + 4) 1 r)

/-- DEADBOLT_LATE (R636): the pair that is open fails as LATE. -/
def execDeadboltLate (s : State) : Host.Outcome State Fault Refusal :=
  match s.latch.db with
  | none => .next s
  | some p => .next ((s.setDb none).dbFail p.reg.off 2 p.by_)

end Sys2Proof.Machine
end

