-- ==== Sys2Proof/Machine/Turn.lean ====
section
/-!
DEFINITION. Machine/Turn.lean: the Spindle, its lock and its markers (R18 to R30), the class ledgers and the admission
test (R31 to R40). What a tick does to other blocks is in Machine/Tick.lean, the Doorstop in Machine/Programs.lean.
-/
namespace Sys2Proof.Machine

/-- Replaces the turn state. -/
def State.setTurn (s : State) (t : TurnSt) : State := { s with turn := t }

/-- TRN_CTL.ENABLE. -/
def State.spindleOn (s : State) : Bool := s.fld Reg.trnCtl 0 1 == 1

/-- The turn period in ns. -/
def State.period (s : State) : Nat := (s.reg Reg.trnPeriod).toNat

/-- Whether a requester may write the TRN block (R629). -/
def State.mayTrn (s : State) (r : Requester) : Bool :=
  match r with
  | .joinery => true
  | .tumbler => false
  | r => s.hears r && s.ownsGroup r (s.fld Reg.lchFixgrp 0 4)

/-- The role that a ROLE code names (R51). -/
def roleOf (code : Nat) : Role := if code = 1 then .master else if code = 2 then .follower else .standalone

/-- Clears ALIGNED; the event is set when it was 1 (R29, R55). -/
def State.loseAlign (s : State) : State :=
  let s' := s.setTurn { s.turn with aligned := false }
  if s.turn.aligned then s'.raise 0 3 else s'

/-- Sets ALIGNED; the event is set when it was 0 (R29, R55). -/
def State.gainAlign (s : State) : State :=
  let s' := s.setTurn { s.turn with aligned := true }
  if s.turn.aligned then s' else s'.raise 0 2

/-- Whether the module is aligned: ALIGNED of TRN_STATUS (R52). -/
def State.isAligned (s : State) : Bool := s.turn.running && s.turn.aligned

/-- The acting role's lock follows REF_LOCK; a follower ignores it (R24, R27). -/
def State.refLock (s : State) : Bool := s.fld Reg.trnCtl 4 1 == 1 && s.turn.role != .follower && s.spindleOn

/-- The lock state after a change of REF_LOCK, of the role or of ENABLE: Seeking while REF_LOCK acts (R25). -/
def State.settleLock (s : State) : State :=
  if s.refLock then (if s.turn.lock = .free then s.setTurn { s.turn with lock := .seeking, inRun := 0, lastFour := [] } else s)
  else s.setTurn { s.turn with lock := .free, inRun := 0, lastFour := [] }

/-- ENABLE from 0 to 1 (R22): the Spindle starts, and has not yet ticked. -/
def State.spindleStart (s : State) : State :=
  (s.setTurn { s.turn with
    running := false, role := roleOf (s.fld Reg.trnCtl 1 2), stepped := false, goodRun := 0, badRun := 0,
    aligned := false, valid := false }).settleLock

/-- ENABLE from 1 to 0 (R23, R34, R51): the Spindle stops, per-turn admissions go, a pending period is taken. -/
def State.spindleStop (s : State) : State :=
  let s := match s.turn.periodPending with
    | some v => s.setReg Reg.trnPeriod v
    | none => s
  (s.setTurn { s.turn with
    running := false, aligned := false, stepped := false, valid := false, ledgers := [], periodPending := none }).settleLock

/-- A write of `v` to TRN_CTL (R22, R51): each field by its own code. -/
def State.writeTrnCtl (s : State) (r : Requester) (v : Word) : State :=
  if !s.mayTrn r then s
  else
    let old := s.reg Reg.trnCtl
    let was := bit old 0
    let role := if bits v 1 2 = 3 then bits old 1 2 else bits v 1 2
    let base := if was then bits old 3 1 else bits v 3 1
    let n := (old &&& 0x0F000000) ||| (v &&& 0x003F0731) ||| BitVec.ofNat 32 (role * 2 + base * 8)
    let s := (s.setReg Reg.trnCtl n).pendLw Reg.trnCtl 0x0F000000 v
    if !was && bit v 0 then s.spindleStart
    else if was && !bit v 0 then s.spindleStop
    else s.settleLock

/-- SPINDLE_ENABLE (R22). -/
def execSpindleEnable (r : Requester) (v : Word) (s : State) : Host.Outcome State Fault Refusal :=
  .next (s.writeTrnCtl r (v ||| 1))

/-- SPINDLE_DISABLE (R51). -/
def execSpindleDisable (r : Requester) (v : Word) (s : State) : Host.Outcome State Fault Refusal :=
  .next (s.writeTrnCtl r (v &&& ~~~1))

/-- ROLE_WRITE (R22): TOL is written as it stands, so a pending TOL is replaced as by any write (R631). -/
def execRoleWrite (r : Requester) (role : BitVec 2) (s : State) : Host.Outcome State Fault Refusal :=
  .next (s.writeTrnCtl r (setBits (s.reg Reg.trnCtl) 1 2 role.toNat))

/-- A write to TRN_PERIOD while the Spindle is stopped (R23). -/
def State.writePeriod (s : State) (v : Word) : State :=
  if v.toNat < 10000 then s.raise 0 6 else s.setReg Reg.trnPeriod v

/-- TRN_PERIOD_WRITE (R23): an RW write while stopped; while the Spindle runs it is the value half of a pair. -/
def execTrnPeriodWrite (r : Requester) (v : Word) (s : State) : Host.Outcome State Fault Refusal :=
  if s.spindleOn then .next (s.dbValue r .trnPeriod v)
  else if s.mayTrn r then .next (s.writePeriod v) else .next s

/-- A completed TRN_PERIOD pair while the Spindle runs (R23). -/
def State.periodPair (s : State) (v : Word) : State :=
  if v.toNat < 10000 then s.raise 0 6 else s.setTurn { s.turn with periodPending := some v }

/-- TRN_PERIOD_PAIR (R23, R637): while the Spindle is stopped TRN_PERIOD_C is no Deadbolt half and the write is ignored. -/
def execTrnPeriodPair (r : Requester) (c : Word) (s : State) : Host.Outcome State Fault Refusal :=
  if !s.spindleOn then .next s
  else match s.dbComplement r .trnPeriod c with
    | (none, s) => .next s
    | (some v, s) => if s.mayTrn r then .next (s.periodPair v) else .next (s.dbFail (DbReg.trnPeriod.off + 4) 5 r)

/-- Whether an interval lies within ±500 ppm of the period (R24). -/
def State.inWindow (s : State) (i : Nat) : Bool :=
  decide ((max i s.period - min i s.period) * 1000000 ≤ 500 * s.period)

/-- Enters Holdover (R25). -/
def State.enterHoldover (s : State) : State := (s.setTurn { s.turn with lock := .holdover, inRun := 0 }).raise 0 1

/-- REF_LOCK measures the edges: it is set, and no follower ignores it (R24, R27). -/
def State.refMeasures (s : State) : Bool := s.fld Reg.trnCtl 4 1 == 1 && !(s.spindleOn && s.turn.role == .follower)

/-- TURN_REF_EDGE (R24, R25). DEDUCED (log 33): the interval that ends at the edge which leaves Holdover is none of the four
that lead to Locked: the Spindle is in Seeking only from that edge on. -/
def execTurnRefEdge (interval : Word) (s : State) : Host.Outcome State Fault Refusal :=
  let s := if s.refMeasures then s.setReg Reg.trnRefp interval else s
  if !s.refLock then .next s
  else
    let i := interval.toNat
    match s.turn.lock with
    | .holdover => .next (s.setTurn { s.turn with lock := .seeking, inRun := 0 })
    | .locked =>
      if s.inWindow i then .next (s.setTurn { s.turn with lastFour := ((i :: s.turn.lastFour).take 4) }) else .next s.enterHoldover
    | _ =>
      if s.inWindow i then
        let n := s.turn.inRun + 1
        let t := { s.turn with inRun := n, lastFour := (i :: s.turn.lastFour).take 4 }
        if n ≥ 4 then .next ((s.setTurn { t with lock := .locked }).raise 0 0) else .next (s.setTurn { t with lock := .seeking })
      else .next (s.setTurn { s.turn with lock := .seeking, inRun := 0 })

/-- REF_EDGE_TIMEOUT (R25). -/
def execRefEdgeTimeout (s : State) : Host.Outcome State Fault Refusal :=
  if s.turn.lock = .locked then .next s.enterHoldover else .next s

/-- MARKER_MISS (R29): counts in TRN_SKEW.MISSED; eight in a row clear ALIGNED. A follower expects markers once it ticks or has
stepped to one. DEDUCED (log 33): a miss is no marker, so it does not break the run of consecutive good markers. -/
def execMarkerMiss (s : State) : Host.Outcome State Fault Refusal :=
  if s.spindleOn && s.turn.role == .follower && (s.turn.stepped || s.turn.running) then
    let s := (s.bumpFld Reg.trnSkew 16 8 1).raise 0 5
    if s.fld Reg.trnSkew 16 8 ≥ 8 then .next s.loseAlign else .next s
  else .next s

/-- A follower steps to a marker: takes its turn number and phase (R29). -/
def State.stepTo (s : State) (n : Nat) : State :=
  s.setTurn { s.turn with num := BitVec.ofNat 48 n, stepped := true, goodRun := 0, badRun := 0 }

/-- OFFSET of TRN_SKEW, saturating at ±32,767 (R54). -/
def skewField (off : Int) : Nat := unsigned 16 (max (-32767) (min 32767 off))

/-- A marker with turn number `n` reaches a follower `off` ns off its own tick (R29). Only a later marker records its offset:
the one that the follower steps to as to the first leaves OFFSET as it was (DEDUCED, log 33). -/
def State.marker (s : State) (n : Nat) (off : Int) : State :=
  if !(s.spindleOn && s.turn.role == .follower) then s
  else if !s.turn.stepped then (s.stepTo n).setFld Reg.trnSkew 16 8 0
  else
    let s := (s.setFld Reg.trnSkew 0 16 (skewField off)).setFld Reg.trnSkew 16 8 0
    let s := if off.natAbs > 100 then s.raise 0 4 else s
    if n % 2 ^ 48 ≠ s.turn.num.toNat then ((s.raise 0 10).loseAlign).stepTo n
    else if off.natAbs ≤ 100 then
      let s := s.setTurn { s.turn with goodRun := s.turn.goodRun + 1, badRun := 0 }
      if s.turn.goodRun ≥ 8 then s.gainAlign else s
    else
      let s := s.setTurn { s.turn with badRun := s.turn.badRun + 1, goodRun := 0 }
      if s.turn.badRun ≥ 2 then
        let s := s.loseAlign
        s.setTurn { s.turn with stepped := false }
      else s

/-! ### Classes, ledgers, admission (R31 to R39) -/

/-- Budget units of `ns` nanoseconds of all present cores (R32, R33). -/
def State.units (s : State) (ns : Nat) : Nat := ns * s.capCores / 320

def State.clsEnabled (s : State) (c : Nat) : Bool := c != 0 && s.fld (clsBase c) 0 1 == 1
def State.clsStrict (s : State) (c : Nat) : Bool := s.fld (clsBase c) 1 1 == 1

/-- CAP and FBT in force (R40). -/
def State.capOf (s : State) (c : Nat) : Nat := s.turn.capNow.get 0 c
def State.fbtOf (s : State) (c : Nat) : Nat := s.turn.fbtNow.get 0 c

/-- Fallback reserve of a class (R33). -/
def State.reserve (s : State) (c : Nat) : Nat := s.units (s.fbtOf c)

/-- Main capacity of a class (R33). -/
def State.mainCap (s : State) (c : Nat) : Nat := s.capOf c - s.reserve c

/-- The three conditions of R34. -/
def State.classesValid (s : State) : Bool :=
  let on := (upTo 16).filter s.clsEnabled
  decide (on.foldl (fun a c => a + s.capOf c) 0 ≤ s.units s.period)
    && on.all (fun c => decide (s.reserve c ≤ s.capOf c)) && on.all (fun c => decide (s.fbtOf c < s.period))

/-- The check of the class configuration at a tick (R34), with the CAP and FBT now in force (R40). -/
def State.checkClasses (s : State) : State :=
  let caps : Tab Nat := (upTo 16).map (fun c => (c, (s.reg (clsBase c + 4)).toNat))
  let fbts : Tab Nat := (upTo 16).map (fun c => (c, (s.reg (clsBase c + 8)).toNat))
  let s := s.setTurn { s.turn with capNow := caps, fbtNow := fbts }
  let ok := s.classesValid
  let s := s.setTurn { s.turn with valid := ok, capExceeded := !ok }
  if ok then s else s.raise 0 7

/-- Key of the ledger of class c and turn T. -/
def ledgerKey (c t : Nat) : Nat := c * 2 ^ 48 + t % 2 ^ 48

/-- The ledger of (c, T) of a turn that is to come, standing admissions included: each stands in every turn after its
activation, also when the Spindle was started anew (R36, R39). -/
def State.ledger (s : State) (c t : Nat) : Ledger :=
  let l := s.turn.ledgers.get {} (ledgerKey c t)
  s.turn.standing.foldl
    (fun l x => if x.2.cls = c then { main := l.main + x.2.main, fb := l.fb + x.2.fb } else l) l

/-- The absolute turn that TTURN names: of the turns that match it, the one nearest n, the later of two (R35, R251). -/
def State.resolveTurn (s : State) (tturn : Nat) : Int :=
  let d := (tturn + 65536 - s.turnNo % 65536) % 65536
  if d ≤ 32768 then (s.turnNo + d : Nat) else (s.turnNo : Int) + d - 65536

/-- The tests of R36 in order: a refusal code, or none when the command is admitted. -/
def State.admissionCode (s : State) (c : Nat) (t : Int) (main : Nat) (fb : Bool) (fbCost : Nat) : Option Nat :=
  let n := s.turnNo
  if !(s.clsEnabled c && s.turn.valid) then some 0x43
  else if t < n + 1 then some 0x41
  else if t > n + 16 then some 0x42
  else if s.clsStrict c && !fb then some 0x43
  else
    let l := s.ledger c t.toNat
    if l.main + main > s.mainCap c then some 0x40
    else if l.fb + fbCost > s.reserve c then some 0x40
    else none

/-- Adds an admitted command's costs to the ledger of (c, T) (R36). -/
def State.admitCosts (s : State) (c t main fbCost : Nat) : State :=
  let k := ledgerKey c t
  s.setTurn { s.turn with ledgers := s.turn.ledgers.upd {} k (fun l => { main := l.main + main, fb := l.fb + fbCost }) }

/-- Main capacity of class c still free in turn n + 1 (REM of R56). -/
def State.rem (s : State) (c : Nat) : Nat := s.mainCap c - (s.ledger c (s.turnNo + 1)).main

/-- Whether a sequence's costs fit the ledgers of all 16 turns (R39). -/
def State.standingFits (s : State) (c main fbCost : Nat) : Bool :=
  (upTo 16).all (fun k =>
    let l := s.ledger c (s.turnNo + 1 + k)
    decide (l.main + main ≤ s.mainCap c) && decide (l.fb + fbCost ≤ s.reserve c))

/-- The Spindle's own part of a tick (R20, R22, R23, R34, R40, R46, R633): strobe, period, turn number, role, check.
DEDUCED (log 33): ALIGN_GAINED is set where R22 or R29 sets ALIGNED, not where ALIGNED reads 1 with the first tick of a
standalone or master; ALIGN_LOST not where it reads 0 because ENABLE was written 0. -/
def State.spindleTick (s : State) : State :=
  let s := s.tickStrobe
  let first := !s.turn.running
  let n : BitVec 48 :=
    if first && s.turn.role != .follower then BitVec.ofNat 48 ((s.reg Reg.trnStartLo).toNat + 2 ^ 32 * s.fld Reg.trnStartHi 0 16)
    else s.turn.num + 1
  let s := match s.turn.periodPending with
    | some v =>
      let shorter := decide (v.toNat < s.period)
      let s := s.setReg Reg.trnPeriod v
      s.setTurn { s.turn with
        periodPending := none, periodCuts := if shorter then (s.turn.ticks + 1) :: s.turn.periodCuts else s.turn.periodCuts }
    | none => s
  let role := roleOf (s.fld Reg.trnCtl 1 2)
  let was := s.turn.role
  let s := s.setTurn { s.turn with num := n, ticks := s.turn.ticks + 1, tick := BitVec.ofNat 64 s.time, running := true, role := role }
  let s :=
    if role = .follower then
      if was = .follower then s else (s.loseAlign).setTurn { s.loseAlign.turn with stepped := false, goodRun := 0, badRun := 0 }
    else if was = .follower then s.gainAlign
    else s.setTurn { s.turn with aligned := true }
  let s := s.settleLock
  let s := s.setTurn { s.turn with ledgers := s.turn.ledgers.filter (fun l => decide (l.1 % 2 ^ 48 > n.toNat)) }
  s.checkClasses

/-- Whether a tick can fall: the Spindle is enabled, and a follower has had its first marker or already ticks (R22). -/
def State.canTick (s : State) : Bool :=
  s.spindleOn && (s.turn.role != .follower || s.turn.stepped || s.turn.running)

end Sys2Proof.Machine
end

