-- ==== Sys2Proof/Machine/Queue.lean ====
section
/-!
DEFINITION. Machine/Queue.lean: hardware command queues (R467 to R483): ownership, states, completion records,
doorbells, MSI-X of a queue. What reads descriptors from a ring is in Machine/Intake.lean.
-/
namespace Sys2Proof.Machine

/-! ### Sequence entries (R486 to R489) -/

def seqEnt (i : Nat) : Nat := 0xF001000000 + 32 * i
def State.sf (s : State) (i off lo w : Nat) : Nat := s.rec_ (seqEnt i + off) lo w
def State.setSeq (s : State) (x : SeqSt) : State := { s with seq := x }
def State.setSf (s : State) (i off lo w v : Nat) : State := s.setRec (seqEnt i + off) lo w v

def State.seqState (s : State) (i : Nat) : Nat := s.sf i 0 0 3
def State.seqPart (s : State) (i : Nat) : Nat := s.sf i 0 4 4
def State.seqTokens (s : State) (i : Nat) : Nat := s.sf i 0 32 32
def State.seqDone (s : State) (i : Nat) : Nat := s.sf i 8 0 32
def State.seqRptq (s : State) (i : Nat) : Nat := s.sf i 8 48 14
def State.seqProg (s : State) (i : Nat) : Nat := s.sf i 0 16 12

/-- Step program record (R491). -/
def progRec (p : Nat) : Nat := 0xF001800000 + 32 * p
def State.pgf (s : State) (p off lo w : Nat) : Nat := s.rec_ (progRec p + off) lo w

/-- Entries in a state other than FREE, ascending. -/
def State.seqIn (s : State) (st : Nat) : List Nat :=
  (s.mem.filter (fun c => decide (0xF001000000 ≤ c.1) && decide (c.1 < 0xF001800000) && c.1 % 32 == 0 && c.2.toNat % 8 == st)).map
    (fun c => (c.1 - 0xF001000000) / 32)

/-- Adds to the pending map (R492). -/
def State.mark (s : State) (i : Nat) : State := s.setSeq { s.seq with marked := s.seq.marked.put i () }

/-- An entry leaves ACTIVE (R488): its standing admission leaves the later ledgers, and REFS falls. -/
def State.seqLeave (s : State) (i : Nat) : State :=
  let s := s.setTurn { s.turn with standing := s.turn.standing.drop i }
  let a := progRec (s.seqProg i)
  (s.setRec (a + 0x18) 32 32 (s.rec_ (a + 0x18) 32 32 - 1)).setSeq { s.seq with act := s.seq.act.drop i }

/-- An ACTIVE entry enters FAULTED (R488). -/
def State.seqFault (s : State) (i : Nat) : State :=
  (((s.seqLeave i).setSf i 0 0 3 3).raise 5 0).fault 0x0F 2 1 i 0

/-- Report queue `q` is no longer ACTIVE: the ACTIVE entries that name it enter FAULTED (R488). -/
def State.rptLeaves (s : State) (q : Nat) : State :=
  ((s.seqIn 1).filter (fun i => s.seqRptq i == q)).foldl (fun s i => s.seqFault i) s

/-! ### Queues -/

def State.queue (s : State) (q : Nat) : Queue := s.host.queues.get {} q

def State.setQueue (s : State) (q : Nat) (v : Queue) : State :=
  { s with host := { s.host with queues := s.host.queues.put q v } }

/-- Owner of queue group `g`: 0 none, 1 H0, 2 H1, 3 internal (R467). -/
def State.groupOwnerQ (s : State) (g : Nat) : Nat := s.host.owners.get (if g < 32 then 1 else 2) g

def State.qOwner (s : State) (q : Nat) : Nat := s.groupOwnerQ (q / 256)

/-- The host port that owns a queue, if a host does. -/
def State.qPort (s : State) (q : Nat) : Option Nat :=
  let o := s.qOwner q
  if o = 1 then some 0 else if o = 2 then some 1 else none

def State.qSize (s : State) (q : Nat) : Nat := 2 ^ s.fld (hqBase q) 16 4
def State.qPart (s : State) (q : Nat) : Nat := s.fld (hqBase q) 12 4
def State.qClass (s : State) (q : Nat) : Nat := s.fld (hqBase q) 4 4
def State.qPrio (s : State) (q : Nat) : Nat := s.fld (hqBase q) 2 2
def State.qLoc (s : State) (q : Nat) : Nat := s.fld (hqBase q) 1 1
def State.qLimit (s : State) (q : Nat) : Nat := s.fld (hqBase q + 4) 0 12 + 1
def State.sqBase (s : State) (q : Nat) : Nat := (s.reg (hqBase q + 8)).toNat + 2 ^ 32 * (s.reg (hqBase q + 12)).toNat
def State.cqBase (s : State) (q : Nat) : Nat := (s.reg (hqBase q + 16)).toNat + 2 ^ 32 * (s.reg (hqBase q + 20)).toNat

/-- Whether the requester may reach queue `q`'s registers (R461, R469). -/
def State.ownsQueue (s : State) (r : Requester) (q : Nat) : Bool :=
  match r.port? with
  | some p => s.hears r && s.qOwner q == p + 1
  | none => r == .joinery

/-- The partition test of R468. An internal queue (owner 3) takes a partition that no host owns. -/
def State.qPartOk (s : State) (q : Nat) : Bool :=
  s.partValid (s.qPart q) && s.qOwner q != 0
    && s.partHost (s.qPart q) == (if s.qOwner q = 3 then 0 else s.qOwner q)

/-- DRAINING, or ERROR after ENABLE was written 0, ends when every read descriptor's record is written (R473). -/
def State.settleQueue (s : State) (q : Nat) : State :=
  let v := s.queue q
  if v.unrec = 0 ∧ (v.st = .draining ∨ (v.st = .error ∧ s.fld (hqBase q) 0 1 = 0)) then
    s.setQueue q { v with st := .off }
  else s

/-- A queue enters ERROR with a cause of HQ_STATUS (R473, R475). -/
def State.queueError (s : State) (q cause : Nat) : State :=
  let v := s.queue q
  if v.st = .active ∨ v.st = .draining then
    (((s.setQueue q { v with st := .error, cause := cause }).setFld (hqBase q + 0x28) 0 1 1).fault 0x0C 2 cause q 0).rptLeaves q
  else s

/-- The MSI-X message of a queue, through the owning port (R479). -/
def State.queueMsi (s : State) (q : Nat) : State :=
  match s.qPort q with
  | some p => (s.setQueue q { s.queue q with uncovered := 0 }).msiDue p (s.fld (hqBase q + 0x18) 0 11)
  | none => s

/-- A record that requests an interrupt counts towards the queue's next message (R479). -/
def State.recordIrq (s : State) (q : Nat) : State :=
  let n := (s.queue q).uncovered + 1
  let s := s.setQueue q { s.queue q with uncovered := n }
  if s.fld (hqBase q + 0x18) 11 1 = 1 ∧ n ≥ s.fld (hqBase q + 0x18) 16 8 + 1 then s.queueMsi q else s

/-- The 16 bytes of a completion record (R476). -/
def recordBytes (sqHead q slot status flags turn tag : Nat) (phase : Bool) : List Byte :=
  toBytes 2 sqHead ++ toBytes 2 q ++ toBytes 2 slot ++ toBytes 1 status ++ toBytes 1 (flags % 32) ++ toBytes 6 turn
    ++ toBytes 2 (tag % 4096 + b2n phase * 2 ^ 15)

/-- Writes a record into slot CQ_TAIL and advances it (R477, R478): to host memory through the owning port, or for an
internal queue to the HBM of its partition (R469). -/
def State.putRecord (s : State) (q sqHead slot status flags tag : Nat) (irq : Bool) : State :=
  let v := s.queue q
  let bs := recordBytes sqHead q slot status flags s.turnNo tag v.phase
  let a := s.cqBase q + 16 * v.cqTail
  let s := match s.qPort q with
    | some p => s.emit (.hostWrite p a bs)
    | none => s.writeHbm (some (s.qPart q)) a bs
  let t := (v.cqTail + 1) % s.qSize q
  let s := s.setQueue q { s.queue q with
    cqTail := t, phase := if t = 0 then !v.phase else v.phase, unrel := v.unrel + 1 }
  if irq then s.recordIrq q else s

/-- The record of a descriptor read from slot `slot` of queue `q` (R477); not written after a port reset, but counted (R466). -/
def State.record (s : State) (q slot status flags tag : Nat) (irq : Bool) : State :=
  let v := s.queue q
  let s := s.setQueue q { v with unrec := v.unrec - 1 }
  let s := if v.st = .error ∧ v.cause = 4 then s.bump (hqBase q + 0x34) 1 else s.putRecord q v.sqHead slot status flags tag irq
  s.settleQueue q

/-- The record of a sequence step in its report queue (R496): false when the ring has no free slot. -/
def State.stepRecord (s : State) (q seq status : Nat) : Bool × State :=
  let v := s.queue q
  if v.st ≠ .active ∨ v.unrel ≥ s.qSize q then (false, s)
  else (true, s.putRecord q (seq / 2 ^ 16 % 4) (seq % 2 ^ 16) status 0 0 false)

/-- What both doorbells do first: a foreign or unheeded doorbell changes nothing else (R471). -/
def State.doorbell (s : State) (p q : Nat) (f : Queue → State) : State :=
  if !s.hears (Requester.ofPort p) then s
  else if s.qOwner q ≠ p + 1 then (s.setFld (hqBase q + 0x28) 2 1 1).bump (hqBase q + 0x30) 1
  else
    let v := s.queue q
    if v.st = .off ∨ v.st = .draining then s else f v

/-- SQ_TAIL (R471). -/
def execSqTail (p : Fin 2) (q : Fin 16384) (v : Word) (s : State) : Host.Outcome State Fault Refusal :=
  let n := bits v 0 16
  .next (s.doorbell p.val q.val (fun x =>
    if n ≥ s.qSize q.val then s.queueError q.val 2 else s.setQueue q.val { x with sqTail := n }))

/-- CQ_HEAD (R471). -/
def execCqHead (p : Fin 2) (q : Fin 16384) (v : Word) (s : State) : Host.Outcome State Fault Refusal :=
  let n := bits v 0 16
  .next (s.doorbell p.val q.val (fun x =>
    let z := s.qSize q.val
    let rel := (n + z - x.cqHead) % z
    if n ≥ z ∨ (n ≠ x.cqHead ∧ rel > x.unrel) then s.queueError q.val 3
    else if n = x.cqHead then s
    else s.setQueue q.val { x with cqHead := n, unrel := x.unrel - rel }))

/-- The conditions of R474. -/
def State.queueValid (s : State) (q : Nat) : Bool :=
  decide (6 ≤ s.fld (hqBase q) 16 4) && s.qPartOk q && s.sqBase q % 64 == 0 && s.cqBase q % 64 == 0
    && (s.qLoc q == 1 || s.qOwner q != 3)
    && (s.qLoc q == 0 || s.inPart (s.qPart q) (s.sqBase q) (64 * s.qSize q))
    && (s.qOwner q != 3 || s.inPart (s.qPart q) (s.cqBase q) (16 * s.qSize q))

/-- A write of `v` to HQ_CTL (R473, R474, R483): SIZE, LOC and PART only while OFF; TCLASS waits for its strobe. -/
def State.writeHqCtl (s : State) (r : Requester) (q : Nat) (v : Word) : State :=
  if !s.ownsQueue r q then s
  else
    let old := s.reg (hqBase q)
    let x := s.queue q
    let off := x.st == .off
    let keep : Word := if off then 0xF0 else 0xFF0F2
    let s := s.setReg (hqBase q) ((old &&& keep) ||| (v &&& 0xFFF0F &&& ~~~keep))
    let s := s.pendLw (hqBase q) 0xF0 v
    if off then
      if !bit v 0 then s
      else if s.queueValid q then
        s.setQueue q { x with st := .active, cause := 0, sqHead := 0, sqTail := 0, cqTail := 0, cqHead := 0, phase := true, unrel := 0 }
      else (s.setFld (hqBase q) 0 1 0).setFld (hqBase q + 0x28) 1 1 1
    else if bit v 0 then (if bit old 0 then s else s.setFld (hqBase q) 0 1 0)
    else if x.st = .active then ((s.setQueue q { x with st := .draining }).rptLeaves q).settleQueue q
    else s.settleQueue q

/-- QUEUE_ENABLE (R474). -/
def execQueueEnable (r : Requester) (q : Fin 16384) (v : Word) (s : State) : Host.Outcome State Fault Refusal :=
  .next (s.writeHqCtl r q.val (v ||| 1))

/-- QUEUE_DISABLE (R473). -/
def execQueueDisable (r : Requester) (q : Fin 16384) (v : Word) (s : State) : Host.Outcome State Fault Refusal :=
  .next (s.writeHqCtl r q.val (v &&& ~~~1))

/-- COALESCE_TIMEOUT (R479). -/
def execCoalesceTimeout (q : Fin 16384) (s : State) : Host.Outcome State Fault Refusal :=
  let b := hqBase q.val + 0x18
  if (s.queue q.val).uncovered > 0 ∧ s.fld b 11 1 = 1 ∧ s.fld b 24 8 ≠ 0 then .next (s.queueMsi q.val) else .next s

/-- A mask bit is cleared (R643): a pending message of the vector is sent and its pending bit cleared. -/
def State.sendPending (s : State) (p v : Nat) : State :=
  if s.fld (pbaReg p v) (v % 32) 1 = 1 ∧ !s.msiMasked p v then (s.setFld (pbaReg p v) (v % 32) 1 0).sendMsi p v else s

/-- Clears the mask of a vector, or the Function Mask (R643). -/
def State.unmask (s : State) (p : Nat) : Option Nat → State
  | some v => (s.setFld (msxBase p v + 12) 0 1 0).sendPending p v
  | none => (upTo 2048).foldl (fun s v => s.sendPending p v) (s.setHport p { s.hport p with funcMask := false })

/-- MSIX_VECTOR_UNMASK (R643). -/
def execMsixVectorUnmask (p : Fin 2) (v : Option (Fin 2048)) (s : State) : Host.Outcome State Fault Refusal :=
  if s.hears (Requester.ofPort p.val) then .next (s.unmask p.val (v.map Fin.val)) else .next s

/-- A write to MSX_ROUTE[k] (R645): a host may set PORT to its own port, and changes only a route that is disabled or
that names its port. -/
def State.writeRoute (s : State) (r : Requester) (k : Nat) (v : Word) : State :=
  let old := s.reg (Reg.msxRoute k)
  let ok := match r with
    | .tumbler => false
    | .joinery => true
    | r =>
      let p := (r.port?).getD 0
      s.hears r && bits v 11 1 == p && (bits old 12 1 == 0 || bits old 11 1 == p)
  if ok then s.setReg (Reg.msxRoute k) (v &&& 0x1FFF) else s

/-- MSIX_ROUTE_WRITE (R645). -/
def execMsixRouteWrite (r : Requester) (k : Fin 144) (v : Word) (s : State) : Host.Outcome State Fault Refusal :=
  .next (s.writeRoute r k.val v)

end Sys2Proof.Machine
end

