-- ==== Sys2Proof/Machine/Check.lean ====
section
/-!
DEFINITION. Machine/Check.lean: the decode of tensor-command descriptors: fields by byte offset (R229, R240 to R257,
R373, R452, R454, R500, R527, R551), the ten checks of R234 in their order, and the checks that follow them.
-/
namespace Sys2Proof.Machine

/-- A 64-byte descriptor as one number, byte 0 lowest. -/
abbrev Desc := BitVec 512

/-- Field [lo + w − 1 : lo] at byte offset `off` of a descriptor. -/
def Desc.f (d : Desc) (off lo w : Nat) : Nat := bits d (8 * off + lo) w

def Desc.cls (d : Desc) : Nat := d.f 0 0 8
def Desc.order (d : Desc) : Bool := d.f 1 0 1 == 1
def Desc.irq (d : Desc) : Bool := d.f 1 1 1 == 1
def Desc.lsApply (d : Desc) : Bool := d.f 1 2 1 == 1
def Desc.lsRemove (d : Desc) : Bool := d.f 1 3 1 == 1
def Desc.core (d : Desc) : Nat := d.f 6 0 7
def Desc.rnd (d : Desc) : Nat := d.f 7 0 3
def Desc.sat (d : Desc) : Bool := d.f 7 3 1 == 1
def Desc.seed (d : Desc) : Nat := d.f 8 0 64

/-- The tags named by valid dependencies. -/
def Desc.deps (d : Desc) : List Nat :=
  (if d.f 2 15 1 = 1 then [d.f 2 0 12] else []) ++ (if d.f 4 15 1 = 1 then [d.f 4 0 12] else [])

/-- What decode knows beside the descriptor. -/
structure ChkCtx where
  part : Nat
  /-- class of the queue it was read from; `none` for TCMD -/
  queue : Option Nat
  /-- the core whose command queue it enters -/
  core : Nat
  /-- whether the context holds a tag, and the descriptor that holds it -/
  held : Nat → Option Desc

/-! ### Used fields (R231) -/

/-- The mode that a pair of operand formats selects (R104). -/
inductive MmaMode where
  | zf4 | zf8 | zi8 | zf16 | long32 | split | long64
  deriving DecidableEq, Repr

def mmaMode (a b long : Nat) : MmaMode :=
  if a = 1 ∨ b = 1 then .long64
  else if a = 6 ∧ b = 6 then .zi8
  else if a = 0 ∨ b = 0 ∨ a = 6 ∨ b = 6 then (if long = 1 then .long32 else .split)
  else if a = 5 ∧ b = 5 then .zf4
  else if (a = 3 ∨ a = 4) ∧ (b = 3 ∨ b = 4) then .zf8
  else .zf16

def Desc.mode (d : Desc) : MmaMode := mmaMode (d.f 0x38 0 4) (d.f 0x38 4 4) (d.f 0x3A 0 1)

/-- Whether the pair runs in long32 or split mode, so that LONG is used. -/
def Desc.longUsed (d : Desc) : Bool :=
  match mmaMode (d.f 0x38 0 4) (d.f 0x38 4 4) 0 with
  | .split => true
  | _ => false

/-- The fields that the hand-over words of a CHAIN use (R255, R256): those before the last stage name a kind, and a ring's words
its place; the others, and those at or beyond NSTAGE − 1, use nothing. -/
def usedHands (d : Desc) : List (Nat × Nat × Nat) :=
  (upTo (min 5 (d.f 0x1A 0 3 - 1))).flatMap (fun k =>
    (0x1C + 4 * k, 0, 2) :: (if d.f (0x1C + 4 * k) 0 2 = 2 then [(0x1C + 4 * k, 2, 23)] else []))

/-- The body fields that a class uses in the mode its other fields select: (byte offset, lowest bit, width). -/
def usedBody (d : Desc) : List (Nat × Nat × Nat) :=
  match d.cls with
  | 1 =>
    [(0x10, 0, 128), (0x30, 0, 20), (0x34, 0, 32), (0x38, 0, 16)]
      ++ (if d.f 0x38 0 4 = 5 then [(0x20, 0, 64)] else []) ++ (if d.f 0x38 4 4 = 5 then [(0x28, 0, 64)] else [])
      ++ (if d.longUsed then [(0x3A, 0, 1)] else [])
      ++ (if d.mode = .long32 ∨ d.mode = .long64 then [(0x3A, 1, 3)] else [])
  | 2 => [(0x10, 0, 208), (0x2A, 0, 7), (0x2C, 0, 64)] ++ (if d.f 0x2A 2 1 = 1 then [(0x34, 0, 96)] else [])
  | 3 =>
    [(0x10, 0, 48), (0x18, 0, 16), (0x1A, 0, 3), (0x1B, 0, 1)] ++ (if d.f 0x1B 0 1 = 1 then [(0x1B, 1, 3)] else []) ++ usedHands d
  | 4 =>
    let stream := d.f 0x16 0 1 = 1
    let sink := d.f 0x16 3 2
    [(0x10, 0, 32), (0x14, 0, 10), (0x16, 0, 1), (0x38, 0, 64)]
      ++ (if !stream ∨ sink ≠ 0 then (0x24, 15, 1) :: (if d.f 0x24 15 1 = 1 then [(0x24, 0, 12)] else []) else [])
      ++ (if stream then [(0x16, 1, 4)] else [])
      ++ (if stream ∧ sink ≠ 0 then [(0x17, 0, 4), (0x18, 0, 64), (0x20, 0, 32)] else [])
      ++ (if stream ∧ sink ≠ 0 ∧ (d.f 0x17 0 4 = 5 ∨ d.f 0x17 0 4 = 6) then [(0x34, 0, 32)] else [])
      ++ (if stream ∧ d.f 0x16 1 2 = 1 then [(0x26, 0, 16)] else [])
      ++ (if stream ∧ d.f 0x16 1 2 = 2 then [(0x17, 4, 4), (0x28, 0, 64), (0x30, 0, 16)] else [])
  | 5 =>
    [(0x10, 0, 160), (0x24, 0, 21), (0x28, 0, 51), (0x30, 0, 3), (0x31, 0, 8), (0x32, 15, 1), (0x34, 0, 32)]
      ++ (if d.f 0x32 15 1 = 1 then [(0x32, 0, 12)] else []) ++ (if d.f 0x30 0 3 = 4 then [(0x38, 0, 64)] else [])
  | 6 =>
    let kinds := [d.f 0x31 0 4, d.f 0x31 4 4]
    [(0x10, 0, 128), (0x20, 0, 24), (0x24, 0, 24), (0x28, 0, 80), (0x32, 12, 2), (0x32, 15, 1)]
      ++ (if d.f 0x32 12 1 = 1 then [(0x32, 0, 12)] else [])
      ++ (if kinds.contains 3 then [(0x32, 14, 1)] else []) ++ (if kinds.contains 4 then [(0x34, 0, 20)] else [])
      ++ (if d.f 0x32 13 1 = 1 ∨ d.f 0x32 15 1 = 1 then [(0x34, 20, 12), (0x3C, 0, 32)] else [])
  | 7 => [(0x10, 0, 48), (0x18, 0, 48), (0x20, 0, 32), (0x24, 0, 14), (0x28, 0, 32), (0x2C, 0, 8)]
  | 8 => [(0x10, 0, 48), (0x18, 0, 17)]
  | 9 =>
    (0x10, 0, 5) :: (match d.f 0x10 0 3 with
      | 0 => [(0x14, 0, 32), (0x18, 0, 64)]
      | 1 => [(0x14, 0, 32), (0x18, 0, 64), (0x28, 0, 32), (0x30, 0, 32)]
      | 2 => [(0x14, 0, 32), (0x18, 0, 64), (0x20, 0, 48)]
      | 3 => [(0x10, 5, 2), (0x18, 0, 64), (0x2C, 0, 20)]
      | 4 => [(0x10, 5, 2), (0x18, 0, 64)]
      | _ => [])
  | 10 => (0x10, 0, 2) :: (if d.f 0x10 0 2 = 1 then [(0x10, 4, 4), (0x14, 0, 32)] else [])
  | 11 =>
    if d.f 0x14 8 1 = 1 then [(0x14, 8, 1)]
    else [(0x10, 0, 32), (0x14, 0, 9), (0x18, 0, 32), (0x20, 0, 32), (0x28, 0, 32), (0x30, 0, 32)]
  | 12 =>
    [(0x10, 0, 17), (0x14, 0, 32), (0x20, 0, 128), (0x30, 0, 51)]
      ++ (if d.f 0x12 0 1 = 1 then [(0x18, 0, 32), (0x38, 0, 48)] else [])
  | _ => []

/-- Whether the command narrows (R231): a stream VOP without a sink and a transfer that copies do not. -/
def Desc.narrows (d : Desc) : Bool :=
  match d.cls with
  | 2 => true
  | 4 => d.f 0x16 0 1 == 0 || d.f 0x16 3 2 != 0
  | 5 => true
  | 6 => d.f 0x30 0 4 != d.f 0x30 4 4
  | _ => false

/-- The header fields that a class uses (R229, R231, R265): rounding fields where it narrows, the loss-scale bits where
it has a load or store path. -/
def usedHeader (d : Desc) : List (Nat × Nat × Nat) :=
  let c := d.cls
  [(0, 0, 10), (2, 15, 1), (4, 15, 1), (6, 0, 7)]
    ++ (if d.f 2 15 1 = 1 then [(2, 0, 12)] else []) ++ (if d.f 4 15 1 = 1 then [(4, 0, 12)] else [])
    ++ (if c = 4 ∨ c = 5 ∨ c = 6 then [(1, 2, 2)] else [])
    ++ (if d.narrows then [(7, 0, 4), (8, 0, 64)] else [])

/-- The descriptor with its used fields cleared. -/
def unusedBits (d : Desc) (used : List (Nat × Nat × Nat)) : Desc :=
  used.foldl (fun d u => setBits d (8 * u.1 + u.2.1) u.2.2 0) d

/-- Codes that a field calls reserved. -/
def reservedCode (d : Desc) : Bool :=
  match d.cls with
  | 3 => (upTo (min 5 (d.f 0x1A 0 3 - 1))).any (fun k => d.f (0x1C + 4 * k) 0 2 == 3)
  | 4 => d.f 0x16 1 2 == 3 || d.f 0x16 3 2 == 3
  | 5 => d.f 0x28 48 2 == 3 || decide (d.f 0x30 0 3 > 4)
  | 9 => decide (d.f 0x10 0 3 > 4)
  | 10 => decide (d.f 0x10 0 2 > 1)
  | 2 => d.f 0x2A 2 1 == 1 && d.f 0x2A 1 1 == 1
  | _ => false

/-- Check 3: reserved and unused fields, and the kinds of an XFER (R375). -/
def chkReserved (d : Desc) (stage : Bool) : Option Nat :=
  let used := usedHeader d ++ usedBody d ++ (if stage ∧ d.cls = 6 then [(0x38, 0, 32)] else [])
  if unusedBits d used != 0 || reservedCode d then some 0x11
  else if d.cls = 6 then
    let sk := d.f 0x31 0 4
    let dk := d.f 0x31 4 4
    if sk > 3 ∨ dk > 4 ∨ (sk > 2 ∧ dk > 2) ∨ (sk = 1 ∧ d.f 0x30 0 4 > 1) ∨ (dk = 1 ∧ d.f 0x30 4 4 > 1) then some 0x20
    else none
  else none

/-! ### Formats (R62) -/

/-- A code that names no element format. -/
def badFmt (c : Nat) : Bool := decide (c > 6)

/-- Whether a rounding code is permitted for a destination format (R61). -/
def rndOk (rnd fmt : Nat) : Bool :=
  if rnd = 0 then true else if rnd < 5 then decide (fmt < 2) else rnd == 5 && decide (2 ≤ fmt ∧ fmt ≤ 6)

/-- Address of scale slot `i` (R85). -/
def slotRec (i : Nat) : Nat := 0xF000000000 + 0x80 * i

/-- The scale-slot checks of R62 and R85: `fmt` is the destination format that the descriptor names, if it names one. -/
def State.chkSlot (s : State) (part slot : Nat) (fmt : Option Nat) : Option Nat :=
  let a := slotRec slot
  let sf := s.rec_ a 0 4
  if s.rec_ a 12 4 ≠ part then some 0x50
  else if s.rec_ a 8 1 = 0 ∨ sf < 3 ∨ sf > 5 ∨ fmt.getD sf ≠ sf then some 0x51
  else none

/-- Bytes of `n` elements of a format. -/
def fmtBytes (fmt n : Nat) : Nat := ceilDiv (n * (if fmt = 7 then 8 else elemBits fmt)) 8

/-- Bytes that a run of `n` elements takes with its ZS8 bytes directly after them, and where those start (R664). -/
def runSpan (fmt n : Nat) : Nat := if fmt = 5 then 17 * ceilDiv n 32 else fmtBytes fmt n
def zsOffset (fmt n : Nat) : Nat := if fmt = 5 then 16 * ceilDiv n 32 else fmtBytes fmt n

/-- Check 4. -/
def State.chkFormats (s : State) (d : Desc) (part : Nat) : Option Nat :=
  let slotChk (en slot : Nat) (fmt : Option Nat) : Option Nat := if en = 1 then s.chkSlot part slot fmt else none
  match d.cls with
  | 1 =>
    let a := d.f 0x38 0 4
    let b := d.f 0x38 4 4
    if badFmt a || badFmt b then some 0x54
    else if d.f 0x3A 1 3 > 4 then some 0x52
    else if (a = 5 ∨ b = 5) ∧ (d.f 0x30 0 20 + 1) % 32 ≠ 0 then some 0x53 else none
  | 2 =>
    let q := d.f 0x29 0 4
    let k := d.f 0x29 4 4
    if q < 2 ∨ q > 4 ∨ k < 2 ∨ k > 5 then some 0x54
    else if d.rnd ≠ 0 ∧ d.rnd ≠ 5 then some 0x52
    else if k = 5 ∧ ((d.f 0x28 0 8 + 1) % 32 ≠ 0 ∨ (d.f 0x26 0 16 + 1) % 32 ≠ 0) then some 0x53 else none
  | 4 =>
    let stream := d.f 0x16 0 1 = 1
    let sink := stream ∧ d.f 0x16 3 2 ≠ 0
    let dst := d.f 0x17 0 4
    if (sink ∧ badFmt dst = true) ∨ (stream ∧ d.f 0x16 1 2 = 2 ∧ badFmt (d.f 0x17 4 4) = true) then some 0x54
    else if d.rnd > 5 ∨ (sink ∧ rndOk d.rnd dst = false) then some 0x52
    else slotChk (d.f 0x24 15 1) (d.f 0x24 0 12) (if sink then some dst else none)
  | 5 =>
    let df := d.f 0x31 4 4
    if badFmt (d.f 0x31 0 4) || badFmt df || (d.f 0x30 0 3 == 4 && decide (df > 1)) then some 0x54
    else if !rndOk d.rnd df then some 0x52
    else slotChk (d.f 0x32 15 1) (d.f 0x32 0 12) (some df)
  | 6 =>
    let sf := d.f 0x30 0 4
    let df := d.f 0x30 4 4
    let en := d.f 0x32 12 1
    if sf > 7 ∨ df > 7 then some 0x54
    else if (sf ≠ df ∧ (sf > 4 ∨ df > 4)) ∨ (en = 1 ∧ sf = df) then some 0x21
    else if d.rnd > 5 ∨ (df < 7 ∧ rndOk d.rnd df = false) then some 0x52
    else slotChk en (d.f 0x32 0 12) (some (if elemBits sf < elemBits df then sf else df))
  | 7 =>
    let sf := d.f 0x24 0 4
    let cf := d.f 0x24 4 4
    let df := d.f 0x24 8 4
    if (sf ≠ 0 ∧ sf ≠ 3 ∧ sf ≠ 4) ∨ (cf ≠ 3 ∧ cf ≠ 4) ∨ (df ≠ 2 ∧ df ≠ cf) then some 0x54 else none
  | _ => none

/-! ### Cores, alignment, range, shape -/

/-- The logical cores of a 128-bit mask. -/
def maskCores (m : Nat) : List Nat := (upTo 128).filter (fun c => m.testBit c)

/-- Check 5: CORE of a ring command other than TURN, and every core of a mask (R230, R235). -/
def State.chkCores (s : State) (d : Desc) (c : ChkCtx) : Option Nat :=
  let own := c.queue.isSome && d.cls != 12 && !s.present c.core
  let mask := if d.cls = 5 then d.f 0x10 0 128 else if d.cls = 12 then d.f 0x20 0 128 else 0
  if own || (maskCores mask).any (fun l => !s.present l) then some 0x1B else none

/-- Check 6. -/
def chkAlign (d : Desc) : Option Nat :=
  let bad : Bool := match d.cls with
    | 2 => [0x10, 0x14, 0x18, 0x1C, 0x20, 0x34, 0x38, 0x3C].any (fun o => d.f o 0 8 != 0)
    | 3 => d.f 0x10 0 6 != 0
    | 4 =>
      d.f 0x10 0 2 != 0 || (d.f 0x16 3 2 != 0 && d.f 0x17 0 4 == 5 && d.f 0x20 0 4 != 0)
        || (d.f 0x16 1 2 == 2 && d.f 0x17 4 4 == 5 && d.f 0x2C 0 4 != 0)
    | 6 => [0x10, 0x18, 0x28, 0x2C, 0x38].any (fun o => d.f o 0 4 != 0)
    | 8 => d.f 0x10 0 5 != 0
    | 9 => d.f 0x10 0 3 == 1 && d.f 0x18 0 2 != 0
    | _ => false
  if bad then some 0x13 else none

/-- Bytes of scratchpad. -/
def spdSize : Nat := 2 ^ 23

/-- The record areas that transfers reach (R375): first address and bytes. -/
def xferAreas : List (Nat × Nat) :=
  [(0xF000000000, 0x80200), (0xF000100000, 0x800), (0xF000110000, 0x1000), (0xF000120000, 0x2000),
   (0xF000140800, 0x800), (0xF000150000, 0x400), (0xF000160000, 0x200), (0xF000200000, 0x20000),
   (0xF001000000, 0x800000), (0xF001800000, 0x20000)]

/-- Whether the `n` bytes from `a` lie where a DEV end may lie. -/
def State.devOk (s : State) (part a n : Nat) : Bool :=
  s.inPart part a n || xferAreas.any (fun r => decide (r.1 ≤ a ∧ a + n ≤ r.1 + r.2))

/-- Bytes from the first to the last byte of `rows` rows of `n` elements at a stride. -/
def extent (fmt rows stride n : Nat) : Nat := (rows - 1) * stride + fmtBytes fmt n

/-- The last byte plus one of a tile of SRC_ROWS + 1 rows and SRC_COLS + 1 columns that a VOP reads from `a`; of a ZF4 source with
its scale rows behind it (R245). -/
def spdTileEnd (d : Desc) (a : Nat) : Nat :=
  let rows := d.f 0x30 0 8 + 1
  let cols := d.f 0x30 8 8 + 1
  let pitch := d.f 0x2C 0 32
  let fmt := d.f 0x17 4 4
  let tile := a + extent fmt rows pitch cols
  if fmt = 5 then max tile (a + rows * pitch + (rows - 1) * (pitch / 16) + ceilDiv cols 32) else tile

/-- The addresses that decode tests of a VOP's sink (R245): DST, and DST + 256 × DSCALE of a ZF4 or ZI8 sink. -/
def Desc.sinkAddrs (d : Desc) : List Nat :=
  let dst := d.f 0x18 0 48
  if d.f 0x17 0 4 = 5 ∨ d.f 0x17 0 4 = 6 then [dst, dst + 256 * d.f 0x34 0 32] else [dst]

/-- An MMA operand's scale rows past the end of scratchpad. -/
def mmaScalesBad (fmt sbase sstride rows k : Nat) : Bool :=
  fmt == 5 && decide (sbase + (rows - 1) * sstride + ceilDiv k 32 > spdSize)

/-- An MMA operand's base, stride and extent in scratchpad (R106): bits [3:0] are ignored. -/
def mmaExtentBad (base stride fmt sbase sstride rows k : Nat) : Bool :=
  decide (base / 16 * 16 + extent fmt rows (stride / 16 * 16) k > spdSize)
    || mmaScalesBad fmt sbase sstride rows k

/-- Whether an end of an XFER lies in its space (R375). -/
def State.xferEndOk (s : State) (part kind a n : Nat) : Bool :=
  match kind with
  | 0 => decide (a + n ≤ spdSize)
  | 1 => decide (a + n ≤ 2 ^ 21)
  | 2 => s.devOk part a n
  | _ => true

/-- The region tests of R375. -/
def State.xferRegionBad (s : State) (d : Desc) (c : ChkCtx) : Bool :=
  let track := d.f 0x32 13 1
  let verify := d.f 0x32 15 1
  if track = 0 ∧ verify = 0 then false
  else
    let r := d.f 0x34 20 12
    let a := regionRec r
    let src := d.f 0x10 0 64
    let n := extent (d.f 0x30 0 4) (d.f 0x24 0 24 + 1) (d.f 0x28 0 32) (d.f 0x20 0 24 + 1)
    let base := s.rec_ (a + 8) 0 48
    let size := 4096 * s.rec_ (a + 16) 0 32
    let depOk := match d.deps with
      | t :: _ =>
        d.f 2 15 1 == 1 && (match c.held t with
          | some e => e.cls == 6 && e.f 0x32 13 1 == 1 && e.f 0x34 20 12 == r
          | none => false)
      | [] => false
    s.rec_ a 0 1 == 0 || s.rec_ a 12 4 != c.part || d.f 0x31 0 4 != 2 || decide (src < base) || decide (src + n > base + size)
      || (verify == 1 && (track == 0 || !depOk))

/-- Address of group record `g` (R320). -/
def groupRec (g : Nat) : Nat := 0xF000120000 + 0x80 * g

/-- Bytes of an ATTB operand: rows of D elements, with the ZS8 bytes that follow a ZF4 block (R264). -/
def attbBytes (fmt rows dim : Nat) : Nat := fmtBytes fmt (rows * dim) + (if fmt = 5 then rows * dim / 32 else 0)

/-- Check 7. -/
def State.chkRange (s : State) (d : Desc) (c : ChkCtx) (stage : Bool) : Option Nat :=
  let p := c.part
  let err (b : Bool) : Option Nat := if b then some 0x14 else none
  match d.cls with
  | 1 =>
    let k := d.f 0x30 0 20 + 1
    if stage then none
    else err (mmaExtentBad (d.f 0x10 0 32) (d.f 0x14 0 32) (d.f 0x38 0 4) (d.f 0x20 0 32) (d.f 0x24 0 32) (d.f 0x34 0 16 + 1) k
      || mmaExtentBad (d.f 0x18 0 32) (d.f 0x1C 0 32) (d.f 0x38 4 4) (d.f 0x28 0 32) (d.f 0x2C 0 32) (d.f 0x36 0 16 + 1) k)
  | 2 =>
    let bq := d.f 0x24 0 16 + 1
    let bk := d.f 0x26 0 16 + 1
    let dim := d.f 0x28 0 8 + 1
    let bwd := d.f 0x2A 2 1 = 1
    let q := d.f 0x29 0 4
    let kv := d.f 0x29 4 4
    let past (o n : Nat) : Bool := decide (d.f o 0 32 + n > spdSize)
    err (past 0x10 (attbBytes q bq dim) || past 0x14 (attbBytes kv bk dim)
      || past 0x18 (attbBytes kv bk dim) || past 0x1C (attbBytes (if bwd then q else 0) bq dim) || past 0x20 (8 * bq)
      || (decide bwd && (past 0x34 (4 * bq * dim) || past 0x38 (4 * bk * dim) || past 0x3C (4 * bk * dim))))
  | 3 => err (!s.inPart p (d.f 0x10 0 48) (64 * d.f 0x1A 0 3))
  | 4 =>
    let src2 := d.f 0x16 1 2 == 2
    let sink := d.f 0x16 3 2
    let addrBad (a : Nat) : Bool := if sink = 1 then !s.inPart p a 1 else if sink = 2 then decide (a ≥ spdSize) else false
    err (decide (d.f 0x10 0 32 ≥ spdSize)
      || (src2 && !stage && decide (spdTileEnd d (d.f 0x28 0 32) > spdSize))
      || (!(stage && sink == 2) && d.sinkAddrs.any addrBad))
  | 5 =>
    let n := d.f 0x24 0 21 + 1
    let dst := d.f 0x28 0 48
    let nd := if d.f 0x30 0 3 = 4 then 128 else runSpan (d.f 0x31 4 4) n
    err (decide (d.f 0x20 0 32 + runSpan (d.f 0x31 0 4) n > spdSize)
      || (if d.f 0x28 48 2 = 1 then !s.inPart p dst nd else decide (dst + nd > spdSize)))
  | 6 =>
    let sk := d.f 0x31 0 4
    let dk := d.f 0x31 4 4
    let port := d.f 0x32 14 1
    if (sk = 3 ∨ dk = 3) ∧ s.partHost p ≠ port + 1 then some 0x22
    else if s.xferRegionBad d c then some 0x23
    else
      let rows := d.f 0x24 0 24 + 1
      let n := d.f 0x20 0 24 + 1
      err (!(stage && sk == 0) && !s.xferEndOk p sk (d.f 0x10 0 64) (extent (d.f 0x30 0 4) rows (d.f 0x28 0 32) n)
        || !(stage && dk == 0) && !s.xferEndOk p dk (d.f 0x18 0 64) (extent (d.f 0x30 4 4) rows (d.f 0x2C 0 32) n))
  | 7 =>
    let n := d.f 0x20 0 32 + 1
    let inner := s.rec_ (groupRec (d.f 0x28 0 6)) 32 12 + 1
    err (!s.inPart p (d.f 0x10 0 48) (fmtBytes (d.f 0x24 0 4) n) || !s.inPart p (d.f 0x18 0 48) (inner * n * fmtBytes (d.f 0x24 8 4) 1))
  | 8 => err (!s.inPart p (d.f 0x10 0 48) (32 * (d.f 0x18 0 16 + 1)))
  | 9 =>
    let rec_ := 0xF000160000 + 0x80 * d.f 0x10 3 2
    match d.f 0x10 0 3 with
    | 0 => err (!s.inPart p (d.f 0x18 0 64) 8)
    | 2 =>
      err (!s.inPart p (d.f 0x18 0 64) (4096 * s.rec_ (rec_ + 0x18) 32 32) || !s.inPart p (d.f 0x20 0 48) (4096 * s.rec_ (rec_ + 0x20) 0 9))
    | _ => none
  | 11 => err ((upTo 4).any (fun k => decide ((d.f (0x18 + 8 * k) 0 16 + d.f (0x18 + 8 * k) 16 16) * 256 > spdSize)))
  | _ => none

/-- Live state that a YIELD declares, in bytes (R500). -/
def yieldLive (d : Desc) : Nat :=
  let pop (v w : Nat) : Nat := ((upTo w).filter (fun i => v.testBit i)).length
  1536 + 2048 * pop (d.f 0x10 0 32) 32 + 262144 * pop (d.f 0x14 0 8) 8
    + (upTo 4).foldl (fun a k => a + 256 * d.f (0x18 + 8 * k) 16 16) 0

/-- SEQ_LIVE_MAX in bytes (R506). -/
def State.liveMax (s : State) : Nat := 1024 * max 64 (min 4096 (s.fld Reg.seqLiveMax 0 13))

/-- Output tiles of an MMA (R241). -/
def Desc.tm (d : Desc) : Nat := d.f 0x34 0 16 / 256 + 1
def Desc.tn (d : Desc) : Nat := d.f 0x36 0 16 / 256 + 1

/-- Check 8. -/
def State.chkShape (s : State) (d : Desc) (c : ChkCtx) : Option Nat :=
  let err (b : Bool) : Option Nat := if b then some 0x15 else none
  match d.cls with
  | 1 =>
    let k := d.f 0x30 0 20 + 1
    let short (stride fmt sstride : Nat) : Bool :=
      decide (stride / 16 * 16 < fmtBytes fmt k) || (fmt == 5 && decide (sstride < ceilDiv k 32))
    err (short (d.f 0x14 0 32) (d.f 0x38 0 4) (d.f 0x24 0 32) || short (d.f 0x1C 0 32) (d.f 0x38 4 4) (d.f 0x2C 0 32)
      || ((d.f 0x39 6 2 != 0) && (d.tm * d.tn != 1 || d.f 0x39 3 3 != 0)))
  | 2 => err ((d.f 0x2A 4 3 != 0 && d.f 0x2A 4 3 != 4) || decide (d.f 0x24 0 16 ≥ 16384) || decide (d.f 0x26 0 16 ≥ 16384))
  | 4 =>
    err ((d.f 0x16 0 1 == 1 && d.f 0x16 3 2 != 0 && d.f 0x18 48 16 == 0)
      || (d.f 0x16 1 2 == 2 && decide (d.f 0x2C 0 32 < fmtBytes (d.f 0x17 4 4) (d.f 0x30 8 8 + 1))))
  | 5 => err (!(d.f 0x10 0 128).testBit c.core)
  | 6 =>
    let n := d.f 0x20 0 24 + 1
    err (decide (d.f 0x28 0 32 < fmtBytes (d.f 0x30 0 4) n) || decide (d.f 0x2C 0 32 < fmtBytes (d.f 0x30 4 4) n)
      || ((d.f 0x30 0 4 == 5 || d.f 0x30 4 4 == 5) && n % 32 != 0))
  | 12 => err (d.f 0x20 0 128 == 0)
  | 11 => if yieldLive d > s.liveMax then some 0xB3 else none
  | _ => none

/-! ### CHAIN (R255 to R258) -/

/-- Field of hand-over word `k` (R256). -/
def Desc.hand (d : Desc) (k lo w : Nat) : Nat := d.f (0x1C + 4 * k) lo w

def slotRange (d : Desc) : List Nat :=
  let n := d.f 0x39 3 3 + 1
  let wide := d.mode = .long32 ∨ d.mode = .long64
  if wide then (upTo (2 * n)).map (· + d.f 0x39 0 3 / 2 * 2) else (upTo n).map (· + d.f 0x39 0 3)

/-- Whether stage `x` writes, or reads, scratchpad as a KIND 2 hand-over asks (R257). -/
def writesSpd (x : Desc) : Bool := (x.cls == 4 && x.f 0x16 3 2 == 2) || (x.cls == 6 && x.f 0x31 4 4 == 0)
def readsSpd (x : Desc) : Bool := x.cls == 1 || (x.cls == 4 && x.f 0x16 1 2 == 2) || (x.cls == 6 && x.f 0x31 0 4 == 0)

/-- The structure rules of R255 to R257: CHAIN_STAGE holds when this is false. -/
def chainShapeOk (d : Desc) (st : List Desc) : Bool :=
  let n := st.length
  let get (k : Nat) : Desc := st.getD k 0
  decide (1 ≤ n ∧ n ≤ 6)
    && (upTo (n - 1)).all (fun k =>
        let kind := d.hand k 0 2
        ((kind == 1) == ((get k).cls == 1))
          && (kind != 1 || ((get (k + 1)).cls == 4 && (get (k + 1)).f 0x16 1 2 == 1 && (get k).f 0x39 6 2 == 0))
          && (kind != 2 || (writesSpd (get k) && readsSpd (get (k + 1)))))
    && (get (n - 1)).cls != 1
    && (upTo n).all (fun k => !((get k).cls == 4 && (get k).f 0x16 1 2 == 1) || (k != 0 && d.hand (k - 1) 0 2 == 1))
    && (upTo n).all (fun i => (upTo n).all (fun j =>
      !(decide (i < j) && (get i).cls == 1 && (get j).cls == 1) || (slotRange (get i)).all (fun x => !(slotRange (get j)).contains x)))

/-- The scratchpad extents of stage `k` that a ring relocates: each must lie in its entry (R235, R258). -/
def ringFits (d : Desc) (st : List Desc) (k : Nat) : Bool :=
  let x := st.getD k 0
  let inn := k != 0 && d.hand (k - 1) 0 2 == 2
  let out := d.hand k 0 2 == 2 && decide (k < 5)
  let size (h : Nat) : Nat := 2 ^ (d.hand h 5 4 + 8)
  let inOk := !inn || (match x.cls with
    | 1 =>
      let kk := x.f 0x30 0 20 + 1
      if d.hand (k - 1) 24 1 = 0 then
        decide (x.f 0x10 0 32 / 16 * 16 + extent (x.f 0x38 0 4) (x.f 0x34 0 16 + 1) (x.f 0x14 0 32 / 16 * 16) kk ≤ size (k - 1))
      else decide (x.f 0x18 0 32 / 16 * 16 + extent (x.f 0x38 4 4) (x.f 0x36 0 16 + 1) (x.f 0x1C 0 32 / 16 * 16) kk ≤ size (k - 1))
    | 4 => decide (spdTileEnd x (x.f 0x28 0 32) ≤ size (k - 1))
    | _ => decide (x.f 0x10 0 64 + extent (x.f 0x30 0 4) (x.f 0x24 0 24 + 1) (x.f 0x28 0 32) (x.f 0x20 0 24 + 1) ≤ size (k - 1)))
  let outOk := !out || (match x.cls with
    | 6 => decide (x.f 0x18 0 64 + extent (x.f 0x30 4 4) (x.f 0x24 0 24 + 1) (x.f 0x2C 0 32) (x.f 0x20 0 24 + 1) ≤ size k)
    | _ => x.sinkAddrs.all (fun a => decide (a < size k)))
  let ringIn (h : Nat) : Bool := decide (256 * d.hand h 9 15 + (d.hand h 2 3 + 1) * size h ≤ spdSize)
  inOk && outOk && (!out || ringIn k)

/-- The scratchpad extents of a stage that no ring relocates lie in scratchpad; scale rows of an MMA operand never move. -/
def stageSpdOk (d : Desc) (st : List Desc) (k : Nat) : Bool :=
  let x := st.getD k 0
  let inn := k != 0 && d.hand (k - 1) 0 2 == 2
  let out := decide (k < 5) && d.hand k 0 2 == 2
  match x.cls with
  | 1 =>
    let kk := x.f 0x30 0 20 + 1
    let a := mmaExtentBad (x.f 0x10 0 32) (x.f 0x14 0 32) (x.f 0x38 0 4) (x.f 0x20 0 32) (x.f 0x24 0 32) (x.f 0x34 0 16 + 1) kk
    let b := mmaExtentBad (x.f 0x18 0 32) (x.f 0x1C 0 32) (x.f 0x38 4 4) (x.f 0x28 0 32) (x.f 0x2C 0 32) (x.f 0x36 0 16 + 1) kk
    let za := mmaScalesBad (x.f 0x38 0 4) (x.f 0x20 0 32) (x.f 0x24 0 32) (x.f 0x34 0 16 + 1) kk
    let zb := mmaScalesBad (x.f 0x38 4 4) (x.f 0x28 0 32) (x.f 0x2C 0 32) (x.f 0x36 0 16 + 1) kk
    (inn && d.hand (k - 1) 24 1 == 0 && !za || !a) && (inn && d.hand (k - 1) 24 1 == 1 && !zb || !b)
  | 4 =>
    (inn || x.f 0x16 1 2 != 2 || decide (spdTileEnd x (x.f 0x28 0 32) ≤ spdSize))
      && (out || x.f 0x16 3 2 != 2 || x.sinkAddrs.all (fun a => decide (a < spdSize)))
  | _ =>
    (inn || x.f 0x31 0 4 != 0 || decide (x.f 0x10 0 64 + extent (x.f 0x30 0 4) (x.f 0x24 0 24 + 1) (x.f 0x28 0 32) (x.f 0x20 0 24 + 1) ≤ spdSize))
      && (out || x.f 0x31 4 4 != 0 || decide (x.f 0x18 0 64 + extent (x.f 0x30 4 4) (x.f 0x24 0 24 + 1) (x.f 0x2C 0 32) (x.f 0x20 0 24 + 1) ≤ spdSize))

/-- The first failure in a list of checks. -/
def firstSome : List (Option Nat) → Option Nat
  | [] => none
  | some c :: _ => some c
  | none :: r => firstSome r

/-- The checks of one stage descriptor: its source (R228), then as for a command of its class. -/
def State.chkStage (s : State) (c : ChkCtx) (x : Desc) : Option Nat :=
  if x.cls = 0 ∨ x.cls > 12 then some 0x10
  else if x.cls ≠ 1 ∧ x.cls ≠ 4 ∧ x.cls ≠ 6 then some 0x12
  else firstSome [chkReserved x true, s.chkFormats x c.part, chkAlign x, s.chkRange x c true, s.chkShape x c,
    if x.f 1 0 2 ≠ 0 ∨ x.f 2 15 1 ≠ 0 ∨ x.f 4 15 1 ≠ 0 then some 0x18 else none]

/-- Check 9. -/
def State.chkChain (s : State) (c : ChkCtx) (d : Desc) (st : List Desc) : Option Nat :=
  if d.cls ≠ 3 then none
  else
    firstSome ((st.map (fun x => s.chkStage c x)) ++
      [ if chainShapeOk d st then none else some 0x18,
        if (upTo st.length).all (fun k => ringFits d st k && stageSpdOk d st k) then none else some 0x14,
        if d.f 0x1B 0 1 = 1 ∧ (d.f 0x1B 1 3 = 0 ∨ d.f 0x1B 1 3 > d.f 0x1A 0 3) then some 0x19 else none ])

/-- Check 10. -/
def chkDeps (d : Desc) (c : ChkCtx) : Option Nat :=
  if d.deps.all (fun t => (c.held t).isSome) then none else some 0x16

/-! ### Checks after those of R234 -/

/-- Message control record fields (R431). -/
def msgCtl : Nat := 0xF000140000
def State.msgOn (s : State) : Bool := s.rec_ msgCtl 0 1 == 1
def State.myId (s : State) : Nat := s.rec_ msgCtl 32 20
def State.dim (s : State) (k : Nat) : Nat :=
  if k = 0 then s.rec_ (msgCtl + 8) 0 7 + 1 else if k = 1 then s.rec_ (msgCtl + 8) 8 7 + 1 else s.rec_ (msgCtl + 8) 16 6 + 1

/-- Coordinate `k` of a device identifier (R432). -/
def coord (id k : Nat) : Nat := if k = 0 then id % 128 else if k = 1 then id / 128 % 128 else id / 2 ^ 14

/-- MSG_DEST_INVALID (R455). -/
def State.badDest (s : State) (id : Nat) : Bool :=
  !s.msgOn || id == s.myId || (upTo 3).any (fun k => decide (coord id k ≥ s.dim k))

/-- R327: a RED with MODULE, or a GATH. -/
def State.chkGroup (s : State) (part rid epoch n : Nat) (top8 gath : Bool) : Option Nat :=
  let a := groupRec (rid % 64)
  if s.rec_ a 0 2 = 0 ∨ s.rec_ a 12 4 ≠ part then some 0xD0
  else if s.rec_ (a + 0x18) 0 16 ≠ epoch then some 0xD1
  else if !gath && s.rec_ (a + 8) 36 1 == 0 && (top8 || n % (s.rec_ a 32 12 + 1) != 0) then some 0xD2
  else none

/-- Address of Shutter record `i` (R549) and step record `i` (R529). -/
def shutRec (i : Nat) : Nat := 0xF000160000 + 0x80 * i
def stepRec (i : Nat) : Nat := 0xF000150000 + 0x40 * i

/-- The decode checks of SHUT (R552, R562). -/
def State.chkShut (s : State) (d : Desc) (part : Nat) : Option Nat :=
  let a := shutRec (d.f 0x10 3 2)
  if s.rec_ a 0 2 = 0 ∨ s.rec_ a 12 4 ≠ part then some 0xE0
  else match d.f 0x10 0 3 with
    | 0 => if s.rec_ (stepRec (s.rec_ a 22 4) + 8) 0 32 ≠ d.f 0x14 0 32 then some 0xE0 else none
    | 1 => if d.f 0x18 0 64 + 4 * (d.f 0x30 0 32 + 1) > 4096 * s.rec_ (a + 0x18) 0 32 then some 0xE3 else none
    | 2 => if s.msgOn then none else some 0x90
    | 3 => if s.badDest (d.f 0x2C 0 20) then some 0x90 else none
    | _ => none

/-- R530. -/
def State.chkSill (s : State) (d : Desc) (part : Nat) : Option Nat :=
  if d.f 0x10 0 2 = 0 then none
  else
    let a := stepRec (d.f 0x10 4 4)
    let g := groupRec (s.rec_ a 16 6)
    if s.rec_ a 0 3 ≠ 0 ∨ s.rec_ a 12 4 ≠ part ∨ s.rec_ g 0 2 = 0 ∨ s.rec_ g 12 4 ≠ part
      ∨ s.rec_ (a + 8) 0 32 ≠ d.f 0x14 0 32 then some 0x34
    else none

/-- A SCAT entry: destination, source, remote address, bytes (R454). -/
def scatBad (s : State) (part : Nat) (e : Desc) : Option Nat :=
  if !s.inPart part (e.f 8 0 48) (e.f 0x18 0 32 + 1) then some 0x14
  else if s.badDest (e.f 0 0 20) then some 0x90 else none

/-- The checks that follow the ten of R234. -/
def State.chkAfter (s : State) (d : Desc) (c : ChkCtx) (st : List Desc) : Option Nat :=
  match d.cls with
  | 5 => if d.f 0x28 50 1 = 1 then s.chkGroup c.part (d.f 0x34 0 16) (d.f 0x36 0 16) (d.f 0x24 0 21 + 1) (d.f 0x30 0 3 == 4) false else none
  | 6 => if d.f 0x31 4 4 = 4 ∧ s.badDest (d.f 0x34 0 20) then some 0x90 else none
  | 7 =>
    firstSome [s.chkGroup c.part (d.f 0x28 0 16) (d.f 0x2A 0 16) 1 false true, if s.msgOn then none else some 0x90]
  | 8 => firstSome (st.map (scatBad s c.part))
  | 9 => s.chkShut d c.part
  | 10 => s.chkSill d c.part
  | _ => none

/-- What decode reads beside the descriptor: the stage table of a CHAIN (R255), the entries of a SCAT. -/
def State.tableOf (s : State) (d : Desc) : List Desc :=
  let at_ (a n : Nat) : Desc := BitVec.ofNat 512 (s.peekN a n)
  if d.cls = 3 then (upTo (d.f 0x1A 0 3)).map (fun k => at_ (d.f 0x10 0 48 + 64 * k) 64)
  else if d.cls = 8 then (upTo (d.f 0x18 0 16 + 1)).map (fun k => at_ (d.f 0x10 0 48 + 32 * k) 32)
  else []

/-- Decode (R234): the code of the first failing check, or none. -/
def State.check (s : State) (d : Desc) (c : ChkCtx) : Option Nat :=
  if d.cls = 0 ∨ d.cls > 12 then some 0x10
  else if d.cls = 12 ∧ c.queue.isNone then some 0x12
  else if d.cls ≠ 12 ∧ c.queue.getD 0 ≠ 0 then some 0x1A
  else
    let st := s.tableOf d
    firstSome [chkReserved d false, s.chkFormats d c.part, s.chkCores d c, chkAlign d, s.chkRange d c false,
      s.chkShape d c, s.chkChain c d st, chkDeps d c, s.chkAfter d c st]

end Sys2Proof.Machine
end

