-- ==== Sys2Proof/Machine/Command.lean ====
section
/-!
DEFINITION. Machine/Command.lean: the life of a tensor command: tags (R216), the core command queue (R217), ordering and
dependencies (R236, R237), what a command reads and writes (R515), retirement (R238, R95, R187), and the waits of threads
that its retirement ends (R200).
-/
namespace Sys2Proof.Machine

/-! ### Threads -/

def State.thread (s : State) (l t : Nat) : Thread := (s.core l).threads.get {} t

def State.setThread (s : State) (l t : Nat) (x : Thread) : State :=
  s.setCore l { s.core l with threads := (s.core l).threads.put t x }

/-- Scalar register `i`; g0 reads 0 (R199). -/
def Thread.g (x : Thread) (i : Nat) : Dword :=
  if i = 0 then 0
  else x.regs.get (match x.free with
    | none => 0
    | some n => Config.freeValue 64 (n + i)) i

/-- Writes scalar register `i`; a write to g0 is ignored (R199). -/
def Thread.setG (x : Thread) (i : Nat) (v : Dword) : Thread := if i = 0 then x else { x with regs := x.regs.put i v }

/-- A wait ends: the thread is READY again (R200). -/
def Thread.ready (x : Thread) : Thread := { x with st := .ready, wait := .none }

/-- Sets event bit `b` of logical core `l`'s CCR_EVENT (R225). -/
def State.ccr (s : State) (l b : Nat) : State := s.raise (16 + l) b

/-! ### Commands that are not yet retired -/

/-- Stopped commands of logical core `l` that a save area holds (R499). -/
def State.savedRuns (s : State) (l : Nat) : List Run :=
  match (s.pre.get {} l).saved with
  | some v => v.runs
  | none => []

/-- Every command in a core command queue, in an engine or in a save area, with its logical core. -/
def State.live (s : State) : List (Nat × Cmd) :=
  s.log.flatMap (fun k => (k.2.queue ++ (k.2.running ++ s.savedRuns k.1).map (·.cmd)).map (fun c => (k.1, c)))

/-- Whether two commands belong to one context (R232). -/
def sameCtx (l₁ : Nat) (x₁ : Ctx) (l₂ : Nat) (x₂ : Ctx) : Bool :=
  match x₁, x₂ with
  | .thread a, .thread b => l₁ == l₂ && a == b
  | .queue a _, .queue b _ => a == b
  | _, _ => false

/-- Whether every earlier command of the context has retired (ORDER of R236). -/
def State.oldest (s : State) (l : Nat) (c : Cmd) : Bool :=
  s.live.all (fun x => !(sameCtx x.1 x.2.ctx l c.ctx && decide (x.2.id < c.id)))

/-- How the dependencies of a command stand: `none` while one has not retired, else whether all succeeded (R237). -/
def State.depState (s : State) (l : Nat) (c : Cmd) : Option Bool :=
  let sts := c.deps.map (fun i => (s.core l).doneStatus.find? i)
  if sts.any (·.isNone) then none else some (sts.all (· == some 0))

/-- The lowest free tag of thread `t` (R216). -/
def LCore.freeTag (k : LCore) (t : Nat) : Option Nat :=
  ((upTo 512).find? (fun i => ((k.tags.find? (512 * t + i)).filter (·.freed.isNone)).isNone)).map (512 * t + ·)

/-- Whether the core command queue takes another command (R217). -/
def LCore.room (k : LCore) : Bool := decide (k.queue.length < 64)

/-- The thread whose tags a command of the context takes (R232). -/
def ctxThread : Ctx → Nat
  | .thread t => t
  | .queue _ _ => 7

/-- The command of a tag: in the queue, or running. -/
def LCore.queued (k : LCore) (tag : Nat) : Option Cmd := k.queue.find? (fun c => c.tag == tag)
def LCore.run (k : LCore) (tag : Nat) : Option Run := k.running.find? (fun r => r.cmd.tag == tag)

/-- Replaces a running command. -/
def State.setRun (s : State) (l : Nat) (r : Run) : State :=
  s.setCore l { s.core l with running := (s.core l).running.map (fun x => if x.cmd.id = r.cmd.id then r else x) }

/-- The running command with an identity. -/
def State.runOf (s : State) (l id : Nat) : Option Run := (s.core l).running.find? (fun r => r.cmd.id == id)

/-- A SERVE or STREAM no longer reads its bank: BUSY falls with its last reader (R549). -/
def State.readerEnds (s : State) (l id : Nat) : State :=
  s.shut.foldl (fun s x =>
    match x.2.readers.find? (fun r => r.1 == l && r.2.1 == id) with
    | none => s
    | some r =>
      let rest := x.2.readers.filter (fun y => !(y.1 == l && y.2.1 == id))
      let s := { s with shut := s.shut.put x.1 { x.2 with readers := rest } }
      if rest.any (fun y => y.2.2 == r.2.2) then s else s.setRec (shutRec x.1 + 0x38 + 0x10 * r.2.2) 2 1 0) s

/-- A running command has finished with a status: it is ready to retire. The first status raised stands (R261). -/
def State.finish (s : State) (l id status : Nat) : State :=
  match s.runOf l id with
  | some r => (s.setRun l { r with done := true, status := if r.status = 0 then status else r.status }).readerEnds l id
  | none => s

/-! ### Engines (R228) -/

/-- Engines of a class: 0 matrix, 1 vector, 2 DMA front end, 3 tree unit, 4 Isaryn, 5 Shutter, 6 Sill, 7 none. -/
def classEngines (c : Nat) : List Nat :=
  match c with
  | 1 => [0]
  | 2 => [0, 1]
  | 4 => [1]
  | 5 => [3]
  | 6 => [2]
  | 7 => [4]
  | 8 => [4]
  | 9 => [5]
  | 10 => [6]
  | _ => [7]

/-- The stage descriptors of a command: those of a CHAIN, or the descriptor itself. -/
def Cmd.descs (c : Cmd) : List Desc := if Desc.cls c.desc = 3 then c.stages else [c.desc]

/-- Engines that a queued command needs. -/
def Cmd.engines (c : Cmd) : List Nat := c.descs.flatMap (fun d => classEngines (Desc.cls d))

/-- Engines that a running command still uses: of a CHAIN, those of its unfinished stages; an ATTB holds both of its engines to
retirement (R247). -/
def Run.engines (r : Run) : List Nat :=
  if r.done && !r.replaying && Desc.cls r.cmd.desc != 2 then []
  else if Desc.cls r.cmd.desc = 3 then
    (r.cmd.stages.zipIdx.filter (fun x => !(r.stages.getD x.2 {}).done)).flatMap (fun x => classEngines (Desc.cls x.1))
  else classEngines (Desc.cls r.cmd.desc)

/-- Engines that run one command at a time: matrix, vector and DMA front end (R168, R217). -/
def serialEngine (e : Nat) : Bool := decide (e < 3)

def shareEngine (a b : List Nat) : Bool := a.any (fun e => serialEngine e && b.contains e)

/-! ### What a command reads and writes (R515) -/

/-- Start of the scratchpad of logical core `l` in the space of ranges. -/
def spdSpace (l : Nat) : Nat := (l + 1) * 2 ^ 52

/-- The read and write ranges that a descriptor names. -/
def descRanges (l : Nat) (d : Desc) (entries : List Desc) : List (Nat × Nat) × List (Nat × Nat) :=
  let sp (a n : Nat) : Nat × Nat := (spdSpace l + a, n)
  match d.cls with
  | 1 =>
    let k := d.f 0x30 0 20 + 1
    ([sp (d.f 0x10 0 32 / 16 * 16) (extent (d.f 0x38 0 4) (d.f 0x34 0 16 + 1) (d.f 0x14 0 32 / 16 * 16) k),
      sp (d.f 0x18 0 32 / 16 * 16) (extent (d.f 0x38 4 4) (d.f 0x36 0 16 + 1) (d.f 0x1C 0 32 / 16 * 16) k)], [])
  | 2 =>
    let bq := d.f 0x24 0 16 + 1
    let bk := d.f 0x26 0 16 + 1
    let dim := d.f 0x28 0 8 + 1
    let q := sp (d.f 0x10 0 32) (attbBytes (d.f 0x29 0 4) bq dim)
    let kk := sp (d.f 0x14 0 32) (attbBytes (d.f 0x29 4 4) bk dim)
    let v := sp (d.f 0x18 0 32) (attbBytes (d.f 0x29 4 4) bk dim)
    let dO := sp (d.f 0x1C 0 32) (attbBytes (if d.f 0x2A 2 1 = 1 then d.f 0x29 0 4 else 0) bq dim)
    let st := sp (d.f 0x20 0 32) (8 * bq)
    let grads := [sp (d.f 0x34 0 32) (4 * bq * dim), sp (d.f 0x38 0 32) (4 * bk * dim), sp (d.f 0x3C 0 32) (4 * bk * dim)]
    -- O, STATS and the gradients count as inputs too (R276)
    if d.f 0x2A 2 1 = 1 then ([q, kk, v, dO, st] ++ grads, grads) else ([q, kk, v, dO, st], [dO, st])
  | 4 =>
    let reads := if d.f 0x16 1 2 = 2 then
        [sp (d.f 0x28 0 32) (extent (d.f 0x17 4 4) (d.f 0x30 0 8 + 1) (d.f 0x2C 0 32) (d.f 0x30 8 8 + 1))] else []
    let tpr := max 1 (d.f 0x18 48 16)
    let tiles := if d.f 0x16 1 2 = 2 then 1 else max 1 (d.f 0x26 0 16)
    let n := ceilDiv tiles tpr * 256 * d.f 0x20 0 32
    let sink := d.f 0x16 3 2
    (reads, if sink = 1 then [(d.f 0x18 0 48, n)] else if sink = 2 then [sp (d.f 0x18 0 48) n] else [])
  | 5 =>
    let n := d.f 0x24 0 21 + 1
    let nd := if d.f 0x30 0 3 = 4 then 128 else runSpan (d.f 0x31 4 4) n
    ([sp (d.f 0x20 0 32) (runSpan (d.f 0x31 0 4) n)],
      if d.f 0x28 48 2 = 1 then [(d.f 0x28 0 48, nd)] else [sp (d.f 0x28 0 48) nd])
  | 6 =>
    if d.f 0x32 15 1 = 1 then ([], [])
    else
      let rows := d.f 0x24 0 24 + 1
      let n := d.f 0x20 0 24 + 1
      let end_ (kind a bytes : Nat) : List (Nat × Nat) := if kind = 0 then [sp a bytes] else if kind = 2 then [(a, bytes)] else []
      (end_ (d.f 0x31 0 4) (d.f 0x10 0 64) (extent (d.f 0x30 0 4) rows (d.f 0x28 0 32) n),
       end_ (d.f 0x31 4 4) (d.f 0x18 0 64) (extent (d.f 0x30 4 4) rows (d.f 0x2C 0 32) n))
  | 7 => ([(d.f 0x10 0 48, fmtBytes (d.f 0x24 0 4) (d.f 0x20 0 32 + 1))], [])
  | 8 => (entries.map (fun e => (e.f 8 0 48, e.f 0x18 0 32 + 1)), [])
  | _ => ([], [])

/-- The ranges of a command; a CHAIN's are those of its stages. -/
def Cmd.ranges (c : Cmd) (l : Nat) : List (Nat × Nat) × List (Nat × Nat) :=
  if Desc.cls c.desc = 3 then
    let rs := c.stages.map (fun d => descRanges l d [])
    (rs.flatMap (·.1), rs.flatMap (·.2))
  else descRanges l c.desc c.stages

def overlap (a b : Nat × Nat) : Bool := decide (a.1 < b.1 + b.2 ∧ b.1 < a.1 + a.2)

/-- Earlier commands of accumulation chains of core `l` whose handle is not yet pushed: their inputs are retained (R143). Those that
run, or have not crossed, are in the table as such. -/
def State.chainInputs (s : State) (l : Nat) : List (Nat × Nat) :=
  let known := ((s.core l).running ++ s.savedRuns l).map (·.cmd.id) ++ (s.sill.retired.filter (fun e => e.core == l)).map (·.id)
  let open_ := ((s.phy (s.under l)).slots.filter (fun x => x.2.core == l && (x.2.st == .kept || x.2.st == .filling))).flatMap (·.2.parts)
  ((open_.filter (fun c => !known.contains c.id)).map (fun c => (descRanges l c.desc []).1)).eraseDups.flatten

/-- Ranges that the retention table of logical core `l` holds (R515). -/
def State.retained (s : State) (l : Nat) : List (Nat × Nat) :=
  ((s.core l).running ++ s.savedRuns l).flatMap (fun r => (r.cmd.ranges l).1)
    ++ (s.sill.retired.filter (fun e => e.core == l)).flatMap (·.reads) ++ s.chainInputs l

/-- Whether the retention table keeps a queued command from starting (R515). -/
def State.sillHolds (s : State) (l : Nat) (c : Cmd) : Bool :=
  let held := s.retained l
  let rw := c.ranges l
  rw.2.any (fun w => held.any (overlap w)) || decide (held.length + rw.1.length > 256)

/-- Provisional entries that a command's HBM ranges read (R516). -/
def State.provReads (s : State) (rs : List (Nat × Nat)) : List Nat :=
  (s.sill.prov.filter (fun e => rs.any (fun r => overlap r (e.2.lo, e.2.n)))).map (·.1)

/-! ### Summaries of a vector program (R186, R187) -/

/-- Byte at scratchpad address `a` of a physical core; an open value where a pre-emption left no defined contents. -/
def Phys.spdByte (p : Phys) (a : Nat) : Byte :=
  match p.free with
  | none => p.spd.get 0 a
  | some n => p.spd.get (Config.freeValue 8 (n + a)) a

def Phys.spdN (p : Phys) (a n : Nat) : Nat := ofBytes ((upTo n).map (fun i => p.spdByte (a + i)))

/-- Summary slots that the VSUMs of the vector program at `a` name. -/
def vsumSlots (p : Phys) (a : Nat) : Nat → List Nat
  | 0 => []
  | n + 1 =>
    let w := p.spdN a 4
    if w % 128 = 1 then [] else (if w % 128 = 0x2A then [w / 128 % 4] else []) ++ vsumSlots p (a + 4) n

/-- Summary slots that a command will post, by 4 × thread + slot. -/
def State.cmdSlots (s : State) (l : Nat) (c : Cmd) : List Nat :=
  (c.descs.filter (fun d => Desc.cls d == 4)).flatMap
    (fun d => (vsumSlots (s.phy (s.under l)) (Desc.f d 0x10 0 32) 1024).map (4 * ctxThread c.ctx + ·))

/-- A slot is pending while a live command will post it (R187). -/
def State.slotPending (s : State) (l slot : Nat) : Bool := (s.core l).sumPend.any (fun x => x.2 == slot)

/-! ### Retirement -/

/-- The retire word of R218. -/
def retireWord (status flags : Nat) (summary : Bool) : Dword :=
  BitVec.ofNat 64 (status % 256 + flags % 32 * 256 + b2n summary * 2 ^ 13)

/-- Posts flags to a flag set of logical core `l` (R95). -/
def State.postFlags (s : State) (l set : Nat) (f : Fl) : State :=
  let k := s.core l
  s.setCore l { k with flags := k.flags.upd 0 set (· ||| f) }

/-- Whether thread `t` of core `l` has a TCMD that has not retired (FENCE T, R206). -/
def State.hasLive (s : State) (l t : Nat) : Bool :=
  (s.core l).queue.any (fun c => c.ctx == .thread t) || ((s.core l).running ++ s.savedRuns l).any (fun r => r.cmd.ctx == .thread t)

/-- Ends the waits of thread `t` that the state of its core now satisfies: TWAIT, a pending summary and FENCE T
(R218, R219, R206). -/
def State.wakeThread (s : State) (l t : Nat) : State :=
  let x := s.thread l t
  if x.st ≠ .wait then s
  else match x.wait with
    | .twait tag rd =>
      match (s.core l).tags.find? tag with
      | some e =>
        match e.word with
        | some w =>
          let s := s.setThread l t (x.ready.setG rd w)
          s.setCore l { s.core l with tags := (s.core l).tags.drop tag }
        | none => s
      | none => s.setThread l t (x.ready.setG rd (retireWord 0x80 0 false))
    | .summary slot rd =>
      if s.slotPending l (4 * t + slot) then s
      else s.setThread l t (x.ready.setG rd ((s.core l).sums.get 0 (4 * t + slot)))
    | .fence 2 => if s.hasLive l t then s else s.setThread l t x.ready
    | _ => s

def State.wake (s : State) (l : Nat) : State := (upTo 8).foldl (fun s t => s.wakeThread l t) s

/-- Frees the tag of a command or posts its retire word (R216, R218). -/
def State.postTag (s : State) (l : Nat) (c : Cmd) (w : Dword) : State :=
  let k := s.core l
  let tags := match c.ctx with
    | .thread _ => if c.discard then k.tags.drop c.tag
      else (match k.tags.find? c.tag with
        | some e => k.tags.put c.tag { e with word := some w }
        | none => k.tags)
    | .queue _ _ => match k.tags.find? c.tag with
      | some e => k.tags.put c.tag { e with freed := some s.cycles }
      | none => k.tags
  s.setCore l { k with tags := tags }

/-- Whether a class counts as an outstanding transfer of its queue (R386). -/
def isTransfer (cls : Nat) : Bool := cls == 6 || cls == 7 || cls == 8

/-- What the Shutter notes of a SHUT command that ends (R555): a SEND that retired with 0x00, a failure within a take. -/
def State.shutNote (s : State) (d : Desc) (status : Nat) : State :=
  let i := d.f 0x10 3 2
  if d.cls ≠ 9 ∨ s.rec_ (shutRec i) 0 2 ≠ 2 then s
  else
    let x := s.shut.get {} i
    let x := if status ≠ 0 then { x with failed := true } else if d.f 0x10 0 3 = 2 then { x with sendOk := true } else x
    { s with shut := s.shut.put i x }

/-! ### Issue -/

/-- The program of a budgeted context: the TURN program or step whose main or fallback runs on this thread. -/
def State.progOf (s : State) (l t : Nat) : Option Nat :=
  (List.find? (fun (p : Nat × Prog) =>
    p.2.got && (p.2.phase == .main || p.2.phase == .fallback) && p.2.thread == t && p.2.cores.contains l && !p.2.saving.contains l)
    s.turn.progs).map (·.1)

/-- The budgeted program that holds logical core `l` (R494). -/
def State.holder (s : State) (l : Nat) : Option Nat :=
  (List.find? (fun (p : Nat × Prog) => p.2.got && (p.2.phase == .main || p.2.phase == .stopping || p.2.phase == .fallback) && p.2.cores.contains l)
    s.turn.progs).map (·.1)

/-- Whether an engine may not take an unbudgeted command: a budgeted program holds the core, or its resident is displaced
(R498, R503). The vector engine still takes what drains the Hatch before the save. -/
def State.displaced (s : State) (l : Nat) (c : Cmd) : Bool :=
  let st := (s.pre.get {} l).st
  let drains := st == .stopping && c.engines == [1] && !(s.phy (s.under l)).hatch.isEmpty
  c.prog.isNone && (st != .none || (s.holder l).isSome) && !drains

/-- Whether a pre-emption stops the command within itself, at a tile-step boundary: SERVICE mode with a YIELD in force (R498). -/
def State.mxStops (s : State) (l : Nat) (r : Run) : Bool :=
  r.cmd.prog.isNone && (s.pre.get {} l).st == .stopping && s.fld Reg.seqCtl 1 1 == 0 && (s.core l).yield.isSome

/-- Whether a pre-emption has stopped the vector engine, at a tile boundary with the Hatch empty, or the DMA front end before its next
request (R498). -/
def State.preStops (s : State) (l : Nat) (r : Run) (cls : Nat) : Bool :=
  let p := s.phy (s.under l)
  s.mxStops l r && (cls == 6 || (cls == 4 && p.hatch.isEmpty && p.cur.isNone))

/-- What decode knows of a context that enters core `l` (R237, R375). -/
def State.chkCtx (s : State) (l : Nat) (x : Ctx) (part : Nat) (queue : Option Nat) : ChkCtx :=
  { part := part, queue := queue, core := l,
    held := fun t => match (s.core l).tags.find? t with
      | some e => if sameCtx l e.ctx l x && e.freed.all (· == s.cycles) then some e.desc else none
      | none => none }

/-- A command takes tag `tag` and enters the queue of core `l`, where it is decoded (R216, R217, R234): a refusal ends it
at once. -/
def State.enter (s : State) (l : Nat) (x : Ctx) (part tag : Nat) (d : Desc) (discard : Bool) : State :=
  let queue := match x with
    | .thread _ => none
    | .queue q _ => some (s.qClass q)
  let code := s.check d (s.chkCtx l x part queue)
  let k := s.core l
  let deps := d.deps.map (fun t => match k.tags.find? t with
    | some e => e.id
    | none => 0)
  let c : Cmd := {
    id := s.nextCmd, desc := d, tag := tag, ctx := x, part := part, discard := discard,
    stages := if code.isNone then s.tableOf d else [], deps := deps, prog := match x with
      | .thread t => s.progOf l t
      | .queue _ _ => none }
  let k := { k with tags := k.tags.put tag { id := c.id, ctx := x, discard := discard, desc := d } }
  let s := { s.setCore l k with nextCmd := s.nextCmd + 1 }
  match code with
  | some code =>
    let s := (s.shutNote d code).postTag l c (retireWord code 0 false)
    let s := s.setCore l { s.core l with doneStatus := (s.core l).doneStatus.put c.id code }
    let s := match x with
      | .thread _ => s
      | .queue q slot => s.record q slot code 0 tag d.irq
    s.wake l
  | none =>
    let s := match x with
      | .thread _ => s
      | .queue q _ =>
        let v := s.queue q
        if isTransfer d.cls then s.setQueue q { v with outstanding := v.outstanding + 1 } else s
    let k := s.core l
    s.setCore l { k with queue := k.queue ++ [c], sumPend := k.sumPend ++ (s.cmdSlots l c).map (fun i => (c.id, i)) }

/-- TCMD of thread `t` places its descriptor, if the queue has room and a tag is free (R215): the tag, and the state. -/
def State.tryTcmd (s : State) (l t : Nat) (d : Desc) (discard : Bool) : Option (Nat × State) :=
  let k := s.core l
  if !k.room || s.closed then none
  else match k.freeTag t with
    | none => none
    | some tag => some (tag, s.enter l (.thread t) (s.thread l t).part.toNat tag d discard)

/-- TCMDs of core `l` that wait, as (order of issue, thread), the first issued first (R217). -/
def State.waitingTcmds (s : State) (l : Nat) : List (Nat × Nat) :=
  ((upTo 8).filterMap (fun t =>
    let x := s.thread l t
    match x.wait with
    | .queue _ _ _ n => if x.st = .wait then some (n, t) else none
    | _ => none)).mergeSort (fun a b => decide (a.1 ≤ b.1))

/-- Threads that wait to issue a command enter in the order of their issue, while there is room and their tags permit
(R200, R217). -/
def State.wakeTcmd (s : State) (l : Nat) : State :=
  (s.waitingTcmds l).foldl (fun s n =>
    match (s.thread l n.2).wait with
    | .queue d rd discard _ =>
      match s.tryTcmd l n.2 d discard with
      | some (tag, s) => s.setThread l n.2 ((s.thread l n.2).ready.setG rd (BitVec.ofNat 64 tag))
      | none => s
    | _ => s) s

/-! ### The end of a command -/

/-- What every end of a command posts (R95, R187, R188, R218, R477): summaries, flags, the status that dependents see, the
retire word or completion record; then the waits that this ends. -/
def State.post (s : State) (l : Nat) (c : Cmd) (status : Nat) (flags : List (Nat × Fl)) (sums : Tab Dword) (stopped : Bool) :
    State :=
  let k := s.core l
  let slots := (k.sumPend.filter (fun x => x.1 == c.id)).map (·.2)
  let vals := slots.foldl
    (fun (t : Tab Dword) i => t.put i ((sums.find? i).getD (if stopped then BitVec.ofNat 64 (2 ^ 51) else 0))) k.sums
  let s := s.setCore l { k with
    sums := vals, sumPend := k.sumPend.filter (fun x => x.1 != c.id), doneStatus := k.doneStatus.put c.id status }
  let s := flags.foldl (fun s f => s.postFlags l f.1 f.2) s
  let all := flags.foldl (fun a f => a ||| f.2) (0 : Fl)
  let s := s.postTag l c (retireWord status all.toNat (!slots.isEmpty))
  let s := match c.ctx with
    | .thread _ => s
    | .queue q slot =>
      let v := s.queue q
      let s := if isTransfer (Desc.cls c.desc) then s.setQueue q { v with outstanding := v.outstanding - 1 } else s
      s.record q slot status all.toNat c.tag (Desc.irq c.desc)
  (s.wake l).wakeTcmd l

/-- A roll of scale slots and a fold touch a slot only while its FMT is valid and it is enabled (R85). -/
def State.slotLive (s : State) (i : Nat) : Bool :=
  let a := slotRec i
  s.rec_ a 8 1 == 1 && decide (3 ≤ s.rec_ a 0 4 ∧ s.rec_ a 0 4 ≤ 5)

/-- Folds a retiring store into its scale slot (R87); a command that stored nothing with the slot contributes nothing (R174). -/
def State.applyFold (s : State) (f : Fold) : State :=
  if !f.store || !f.any || !s.slotLive f.slot then s
  else
    let a := slotRec f.slot
    let s := s.setRec (a + 8) 0 32 (max (s.rec_ (a + 8) 0 32) f.mag)
    let s := s.setRec a 10 1 1
    s.bumpRec (a + 8) 32 32 f.sats

/-- Removes a running command from its core. -/
def State.dropRun (s : State) (l id : Nat) : State :=
  s.setCore l { s.core l with running := (s.core l).running.filter (fun r => r.cmd.id != id) }

/-- The flag sets that a command posts to (R94): its own flags by set. -/
def Run.flagSets (r : Run) : List (Nat × Fl) := r.sets

/-- The Sill's record of a command that retires with status 0 (R514), or its outcome (R528). -/
def State.sillRetire (s : State) (l : Nat) (r : Run) (status : Nat) : State :=
  let rw := r.cmd.ranges l
  if status = 0 && r.tainted then
    { s with sill := { s.sill with
      outcomes := s.sill.outcomes ++ [(r.cmd.id, l, r.cmd.ctx, 0x36)], lost := s.sill.lost ++ r.cmd.prog.toList } }
  else if status = 0 then
    let e : SillEnt := {
      id := r.cmd.id, core := l, ctx := r.cmd.ctx, prog := r.cmd.prog, reads := rw.1, writes := rw.2, dup := r.sampled, links := r.links
      engines := r.cmd.engines.filter serialEngine }
    { s with sill := { s.sill with retired := s.sill.retired ++ [e] } }
  else if status = 0x30 ∨ status = 0x35 ∨ status = 0x36 then
    { s with sill := { s.sill with outcomes := s.sill.outcomes ++ [(r.cmd.id, l, r.cmd.ctx, status)] } }
  else s

/-- The derived provisional ranges that a retiring provisional command leaves (R516). -/
def State.derive (s : State) (l : Nat) (r : Run) : State :=
  if r.links.isEmpty then s
  else
    let hbm := (r.cmd.ranges l).2
    hbm.foldl (fun s w =>
      { s with sill := { s.sill with
        prov := s.sill.prov.put s.sill.nextProv { lo := w.1, n := w.2, links := r.links, cmd := some r.cmd.id, complete := true },
        nextProv := s.sill.nextProv + 1 } }) s

/-- Whether a CHAIN is of the context of another, overlaps, and comes after it (R262). -/
def Cmd.overlaps (c r : Cmd) (l : Nat) : Bool :=
  Desc.cls c.desc == 3 && Desc.f c.desc 0x1B 0 1 == 1 && sameCtx l c.ctx l r.ctx && decide (c.id > r.id)

/-- A CHAIN that fails stops the CHAIN of its context that overlaps it; one that is still queued depends on it and does not run
(R262, R237). -/
def State.chainFails (s : State) (l : Nat) (r : Run) : State :=
  if Desc.cls r.cmd.desc ≠ 3 ∨ r.status = 0 then s
  else
    let k := s.core l
    let later := (k.running.map (·.cmd) ++ k.queue).filter (fun c =>
      Desc.cls c.desc == 3 && sameCtx l c.ctx l r.cmd.ctx && decide (c.id > r.cmd.id))
    match (later.map (·.id)).min? with
    | none => s
    | some n =>
      let s := if k.running.any (fun x => x.cmd.id == n && x.cmd.overlaps r.cmd l && !x.done) then s.finish l n 0x17 else s
      let k := s.core l
      s.setCore l { k with queue := k.queue.map (fun c =>
        if c.id = n ∧ c.overlaps r.cmd l then { c with deps := c.deps ++ [r.cmd.id] } else c) }

/-- Retires a finished command (R238); one that would retire with 0x00 although its tracked source changed, with
XFER_SOURCE_CHANGED (R382). -/
def State.retire (s : State) (l : Nat) (r : Run) : State :=
  let r := if r.status = 0 && r.changed then { r with status := 0x25 } else r
  -- a link to an entry that is gone and was not confirmed: what it read is tainted (R517)
  let r := { r with tainted := r.tainted || r.links.any (fun i => (s.sill.prov.find? i).isNone) }
  let s := if r.status = 0 then r.folds.foldl (fun s f => s.applyFold f.2) s else s
  let s := s.dropRun l r.cmd.id
  let s := s.sillRetire l r r.status
  let s := if r.status = 0 && !r.tainted then s.derive l r else s
  let s := (s.shutNote r.cmd.desc r.status).chainFails l r
  -- a command that the Doorstop stops posts no summary as valid (R188)
  s.post l r.cmd r.status r.flagSets (if r.status = 0x1D then [] else r.sums) (r.status == 0x1D)

/-! ### Start -/

/-- Whether commands of core `l` that come before `c` in its queue keep its engines from it (R217, R494). -/
def State.behind (s : State) (l : Nat) (c : Cmd) : Bool :=
  (s.core l).queue.any (fun x =>
    decide (x.id < c.id) && x.engines.any (fun e => c.engines.contains e) && !(c.prog.isSome && x.prog.isNone))

/-- The CHAINs of the context that have not retired, oldest first. -/
def State.priorChains (s : State) (l : Nat) (c : Cmd) : List Run :=
  (s.core l).running.filter (fun r => Desc.cls r.cmd.desc == 3 && sameCtx l r.cmd.ctx l c.ctx && decide (r.cmd.id < c.id))

/-- Whether the engines are free for the command: those that run one command at a time (R168, R217), and for a CHAIN the
chain before it (R262). -/
def State.engineFree (s : State) (l : Nat) (c : Cmd) : Bool :=
  let prior := s.priorChains l c
  let chain := Desc.cls c.desc == 3
  let mayOverlap := chain && Desc.f c.desc 0x1B 0 1 == 1 && decide (prior.length ≤ 1)
  let excused (r : Run) : Bool := mayOverlap && prior.any (fun p => p.cmd.id == r.cmd.id)
  (!chain || mayOverlap || prior.isEmpty)
    && s.sill.retired.all (fun e => !(e.replay && e.core == l && shareEngine e.engines c.engines))
    && (s.core l).running.all (fun r => excused r || !shareEngine r.engines c.engines)

/-- How a queued command stands: it may start, it must wait, or a dependency failed (R236, R237, R515). -/
inductive Readiness where
  | wait | fail | go
  deriving DecidableEq, Repr

def State.readiness (s : State) (l : Nat) (c : Cmd) : Readiness :=
  if s.behind l c || s.displaced l c || (Desc.order c.desc && !s.oldest l c) then .wait
  else match s.depState l c with
    | none => .wait
    | some false => .fail
    | some true => if s.engineFree l c && !s.sillHolds l c then .go else .wait

/-- Takes a command out of the core command queue into its engines (R217). -/
def State.take (s : State) (l : Nat) (c : Cmd) : State :=
  let k := s.core l
  let r : Run := { cmd := c, stages := c.descs.map (fun _ => {}), links := s.provReads (c.ranges l).1 }
  (s.setCore l { k with queue := k.queue.filter (fun x => x.id != c.id), running := k.running ++ [r] }).wakeTcmd l

/-- A command whose dependency failed completes without running (R237). -/
def State.failDep (s : State) (l : Nat) (c : Cmd) : State := (s.take l c).finish l c.id 0x17

end Sys2Proof.Machine
end

