-- ==== Sys2Proof/Machine/Ecc.lean ====
section
/-!
DEFINITION. Machine/Ecc.lean: check bits of a core's storage arrays (R150, R190, R372) and of its caches (R208): bits that flip,
words that are checked when they are read, and codes that a write forms anew.
-/
namespace Sys2Proof.Machine

/-! ### The words of an array -/

/-- Words of an array whose stored code is wrong, with the number of wrong bits. -/
def Phys.ups (p : Phys) : Sram → Tab Nat
  | .acc => p.accUps
  | .vec => p.vecUps
  | .spd => p.spdUps

def Phys.setUps (p : Phys) (a : Sram) (t : Tab Nat) : Phys :=
  match a with
  | .acc => { p with accUps := t }
  | .vec => { p with vecUps := t }
  | .spd => { p with spdUps := t }

/-- Whether 64-bit word `w` of an array lies in one of the byte ranges. -/
def inRanges (rs : List (Nat × Nat)) (w : Nat) : Bool := rs.any (fun r => decide (r.1 < 8 * w + 8 ∧ 8 * w < r.1 + r.2))

/-- `n` bytes from byte `a` of an array are written: the code of every word that they cover is formed anew. -/
def Phys.wrote (p : Phys) (x : Sram) (a n : Nat) : Phys :=
  if (p.ups x).isEmpty then p else p.setUps x ((p.ups x).filter (fun u => !decide (a ≤ 8 * u.1 ∧ 8 * u.1 + 8 ≤ a + n)))

/-! ### Reads -/

/-- Registers of an array: its counter in the core's window, CAUSE of its entries in the fault record, and where its LAST
register holds the syndrome and UNCORR (R164, R165, R195, R196, R389). The counter's next register is LAST. -/
def ramCounter : Sram → Nat
  | .acc => 0x1110
  | .vec => 0x1208
  | .spd => 0x1308

def ramCause : Sram → Nat
  | .acc => 1
  | .vec => 2
  | .spd => 3

def ramSyndrome : Sram → Nat
  | .acc => 18
  | .vec => 13
  | .spd => 20

/-- The place of a word in LAST: row and word, register and word, or the word's index. -/
def ramPlace (a : Sram) (w : Nat) : Nat :=
  match a with
  | .acc => w / 128 % 2048 + w % 128 * 2 ^ 11
  | .vec => w / 256 % 32 + w % 256 * 2 ^ 5
  | .spd => w % 2 ^ 20

/-- ADDR of the fault entry, "row or word" (R618): the accumulator row, or the word's index. -/
def ramAddr (a : Sram) (w : Nat) : Nat :=
  match a with
  | .acc => w / 128
  | _ => w

/-- Word `w` is read with `n` wrong bits (R150, R190, R372): one is corrected and the word rewritten, more are uncorrectable. Its
syndrome depends on a code that the spec does not state. -/
def State.eccWord (s : State) (i : Nat) (a : Sram) (w n : Nat) : State :=
  let r := coreWin i + ramCounter a
  let double := decide (n ≥ 2)
  let s := if double then s.bumpFld r 16 16 1 else s.bumpFld r 0 16 1
  let last := ramPlace a w + (s.draw 8).toNat * 2 ^ ramSyndrome a + b2n double * 2 ^ (ramSyndrome a + 8)
  let s := (s.setReg (r + 4) (BitVec.ofNat 32 last)).drew
  if double then s.fault 0x02 1 (ramCause a) i (ramAddr a w)
  else s.setPhy i ((s.phy i).setUps a (((s.phy i).ups a).drop w))

/-- Reads byte ranges of an array of physical core `i`: whether a word of them has an uncorrectable error, and the state with
every error counted, recorded and, where it is one bit, corrected. -/
def State.eccRead (s : State) (i : Nat) (a : Sram) (rs : List (Nat × Nat)) : Bool × State :=
  (((s.phy i).ups a).filter (fun u => inRanges rs u.1)).foldl
    (fun x u => (x.1 || decide (u.2 ≥ 2), x.2.eccWord i a u.1 u.2)) (false, s)

/-- The words that a write of `n` bytes from `a` covers in part: they are read first (R372). -/
def partWords (a n : Nat) : List (Nat × Nat) :=
  (if a % 8 = 0 ∨ n = 0 then [] else [(a, 1)]) ++ (if (a + n) % 8 = 0 ∨ n = 0 then [] else [(a + n - 1, 1)])

/-- A write to an array: words covered in part are read first, and keep what is wrong in them where it is uncorrectable. -/
def State.eccWrite (s : State) (i : Nat) (a : Sram) (start n : Nat) : State :=
  if ((s.phy i).ups a).isEmpty then s
  else
    let s := (s.eccRead i a (partWords start n)).2
    s.setPhy i ((s.phy i).wrote a start n)

/-! ### Upsets -/

/-- A bit flips (R150, R190, R208, R372). The spec gives no rate: which bit flips in a cycle, if any, is open. -/
def State.upset (s : State) (u : Upset) : State :=
  match u with
  | .none => s
  | .word i a w =>
    if i < 136 then s.setPhy i ((s.phy i).setUps a (((s.phy i).ups a).upd 0 w (· + 1))) else s
  | .icache l n =>
    let k := s.core l
    if (k.icache.find? n).isSome then s.setCore l { k with iBad := n :: k.iBad.filter (· != n) } else s
  | .dcache l n =>
    let k := s.core l
    if (k.dcache.find? n).isSome then s.setCore l { k with dBad := n :: k.dBad.filter (· != n) } else s
  | .panel p n =>
    match s.pcache.find? (p * 2 ^ 40 + n) with
    | some x => { s with pcache := s.pcache.put (p * 2 ^ 40 + n) { x with ups := x.ups + 1 } }
    | none => s

end Sys2Proof.Machine
end

