-- ==== Sys2Proof/Machine/Hash.lean ====
section
/-!
DEFINITION. Machine/Hash.lean: SHA-512 (R589 to R604), as the standard that the spec names defines it (FIPS 180-4).
-/
namespace Sys2Proof.Machine

/-- Whether `n` is a prime, by trial division. -/
def isPrime (n : Nat) : Bool := decide (2 ≤ n) && (upTo n).all (fun d => decide (d < 2) || n % d != 0)

/-- The first 80 primes. -/
def shaPrimes : List Nat := (upTo 410).filter isPrime

/-- The largest `x` with x³ ≤ n, from its bit `k` − 1 down. -/
def icbrtFrom (n : Nat) : Nat → Nat → Nat
  | 0, x => x
  | k + 1, x => let y := x + 2 ^ k; icbrtFrom n k (if y * y * y ≤ n then y else x)

/-- Round constants: the first 64 bits of the fractional parts of the cube roots of the first 80 primes. -/
def shaK : List Dword := shaPrimes.map (fun p => BitVec.ofNat 64 (icbrtFrom (p * 2 ^ 192) 68 0))

/-- Initial hash: the first 64 bits of the fractional parts of the square roots of the first eight primes. -/
def shaH0 : List Dword := (shaPrimes.take 8).map (fun p => BitVec.ofNat 64 (isqrtFrom (p * 2 ^ 128) 70 0))

/-- The message with its padding, in 128-byte blocks. -/
def shaPad (m : List Byte) : List Byte :=
  m ++ [0x80] ++ List.replicate ((239 - m.length % 128) % 128) 0 ++ (toBytes 16 (8 * m.length)).reverse

/-- A 64-bit word from eight bytes, first byte most significant. -/
def beWord (bs : List Byte) : Dword := BitVec.ofNat 64 (ofBytes bs.reverse)

/-- The 80 words of the schedule, newest first, from the 16 words of a block, newest first. -/
def shaSchedule : Nat → List Dword → List Dword
  | 0, w => w
  | n + 1, w =>
    let a := w.getD 1 0
    let b := w.getD 14 0
    let s1 := a.rotateRight 19 ^^^ a.rotateRight 61 ^^^ (a >>> 6)
    let s0 := b.rotateRight 1 ^^^ b.rotateRight 8 ^^^ (b >>> 7)
    shaSchedule n ((s1 + w.getD 6 0 + s0 + w.getD 15 0) :: w)

/-- One round on the eight working variables a to h. -/
def shaRound (v : List Dword) (kw : Dword) : List Dword :=
  let x (i : Nat) : Dword := v.getD i 0
  let e := x 4
  let a := x 0
  let t1 := x 7 + (e.rotateRight 14 ^^^ e.rotateRight 18 ^^^ e.rotateRight 41) + ((e &&& x 5) ^^^ (~~~e &&& x 6)) + kw
  let t2 := (a.rotateRight 28 ^^^ a.rotateRight 34 ^^^ a.rotateRight 39) + ((a &&& x 1) ^^^ (a &&& x 2) ^^^ (x 1 &&& x 2))
  [t1 + t2, a, x 1, x 2, x 3 + t1, e, x 5, x 6]

/-- The compression of one block. -/
def shaBlock (h : List Dword) (b : List Byte) : List Dword :=
  let w := shaSchedule 64 ((upTo 16).map (fun i => beWord ((b.drop (8 * i)).take 8))).reverse
  let v := ((w.reverse.zip shaK).map (fun x => x.1 + x.2)).foldl shaRound h
  (h.zip v).map (fun x => x.1 + x.2)

/-- Folds the blocks of a padded message. `fuel` bounds their number. -/
def shaBlocks : Nat → List Dword → List Byte → List Dword
  | 0, h, _ => h
  | n + 1, h, m => if m.isEmpty then h else shaBlocks n (shaBlock h (m.take 128)) (m.drop 128)

/-- The 64 bytes of the SHA-512 digest. -/
def sha512 (m : List Byte) : List Byte :=
  let p := shaPad m
  (shaBlocks (p.length / 128 + 1) shaH0 p).flatMap (fun w => (toBytes 8 w.toNat).reverse)

/-- HMAC-SHA-512 of a key of at most 128 bytes. PRESUMED: as in RFC 2104 (notes/assumptions/45.md). -/
def hmac512 (key msg : List Byte) : List Byte :=
  let pad (x : Byte) : List Byte := (key ++ List.replicate (128 - key.length) 0).map (· ^^^ x)
  sha512 (pad 0x5C ++ sha512 (pad 0x36 ++ msg))

end Sys2Proof.Machine
end

