-- ==== Sys2Proof/Machine/Intake.lean ====
section
/-!
DEFINITION. Machine/Intake.lean: the queue intakes (R468, R470, R472, R475): reading descriptors from a submission ring,
admitting TURN commands (R36, R250), and passing the others to core command queues.
-/
namespace Sys2Proof.Machine

/-- Replaces the host state. -/
def State.setHost (s : State) (h : HostSt) : State := { s with host := h }

/-- The record of an entry that never had a tag: its TAG is open. -/
def State.recordNoTag (s : State) (q slot status : Nat) (irq : Bool) : State :=
  (s.drew).record q slot status 0 (s.draw 12).toNat irq

/-- An admitted TURN command becomes a program that the Doorstop watches (R41, R250). -/
def State.addProg (s : State) (q slot : Nat) (d : Desc) (t : Nat) : State :=
  let p : Prog := {
    src := .turn q slot, cls := s.qClass q, target := t % 2 ^ 48, mainCost := d.f 0x14 0 32, fb := d.f 0x12 0 1 == 1,
    fbCost := d.f 0x18 0 32, mainAddr := d.f 0x30 0 48, fbAddr := d.f 0x38 0 48, thread := d.f 0x30 48 3,
    cores := maskCores (d.f 0x20 0 128), part := s.qPart q, admitAt := s.turn.ticks, irq := d.irq
    order := d.order }
  let s := s.admitCosts p.cls t p.mainCost p.fbCost
  s.setTurn { s.turn with progs := s.turn.progs.put s.turn.nextProg p, nextProg := s.turn.nextProg + 1 }

/-- Decode and admission of a descriptor that is handled at the ring read: a TURN, or any class in a budgeted queue
(R36, R234, R472). -/
def State.ringTurn (s : State) (q slot : Nat) (d : Desc) : State :=
  match s.check d (s.chkCtx d.core (.queue q slot) (s.qPart q) (some (s.qClass q))) with
  | some code => s.recordNoTag q slot code d.irq
  | none =>
    let t := s.resolveTurn (d.f 0x10 0 16)
    match s.admissionCode (s.qClass q) t (d.f 0x14 0 32) (d.f 0x12 0 1 == 1) (d.f 0x18 0 32) with
    | some code => s.recordNoTag q slot code d.irq
    | none => s.addProg q slot d t.toNat

/-- TURN (R36, R250): the descriptor `desc` in slot `slot` of queue `q`, already read. -/
def execTurn (q : Fin 16384) (slot : Fin 65536) (desc : BitVec 512) (s : State) : Host.Outcome State Fault Refusal :=
  let v := s.queue q.val
  .next ((s.setQueue q.val { v with unrec := v.unrec + 1 }).ringTurn q.val slot.val (setBits desc 0 8 0x0C))

/-- One entry of a ring read (R468, R472). -/
def State.ringEntry (s : State) (q slot : Nat) (d : Desc) : State :=
  if !s.qPartOk q then s.recordNoTag q slot 0xA0 d.irq
  else if s.qClass q ≠ 0 ∨ d.cls = 12 then s.ringTurn q slot d
  else
    let v := s.queue q
    s.setQueue q { v with fetched := v.fetched ++ [(slot, d)] }

/-- Passes descriptors that wait to their core command queues, in ring order, while there is room and a free tag (R472).
`fuel` bounds their number. -/
def State.passFetched (s : State) (q : Nat) : Nat → State
  | 0 => s
  | fuel + 1 =>
    let v := s.queue q
    match v.fetched with
    | [] => s
    | (slot, d) :: r =>
      let rest := s.setQueue q { v with fetched := r }
      if !s.present (Desc.core d) then
        (match s.check d (s.chkCtx (Desc.core d) (.queue q slot) (s.qPart q) (some (s.qClass q))) with
          | some code => rest.recordNoTag q slot code (Desc.irq d)
          | none => rest).passFetched q fuel
      else
        let k := s.core (Desc.core d)
        match (if k.room then k.freeTag 7 else none) with
        | none => s
        | some tag => (rest.enter (Desc.core d) (.queue q slot) (s.qPart q) tag d false).passFetched q fuel

/-- The descriptors of a ring read arrive (R472). -/
def State.ringArrive (s : State) (q first : Nat) (bytes : List Byte) : State :=
  let n := bytes.length / 64
  let z := s.qSize q
  let s := (upTo n).foldl
    (fun s i => s.ringEntry q ((first + i) % z) (BitVec.ofNat 512 (ofBytes ((bytes.drop (64 * i)).take 64)))) s
  s.passFetched q (s.queue q).fetched.length

/-- A ring read fails (R475, cause FETCH): its entries complete with HQ_FETCH_ERROR. -/
def State.ringFail (s : State) (q first n : Nat) : State :=
  let z := s.qSize q
  (upTo n).foldl (fun s i => s.recordNoTag q ((first + i) % z) 0xA1 false) (s.queueError q 1)

/-- A ring read is outstanding for the queue. -/
def State.ringBusy (s : State) (q : Nat) : Bool :=
  s.host.reads.any (fun r => match r.2.use with
    | .ring q' _ _ => q' == q
    | _ => false)

/-- The number of entries that one read of the queue may take now (R472): 0 when it may not be read. -/
def State.readable (s : State) (q : Nat) : Nat :=
  let v := s.queue q
  let z := s.qSize q
  if v.st ≠ .active ∨ s.closed ∨ s.ringBusy q ∨ !v.fetched.isEmpty then 0
  else
    let avail := (v.sqTail + z - v.sqHead) % z
    min (min (min 64 avail) (min (z - v.sqHead) (z - (v.unrec + v.unrel)))) (s.qLimit q - v.outstanding)

/-- Whether the queue pauses on LIMIT alone (R386). -/
def State.limitPaused (s : State) (q : Nat) : Bool :=
  let v := s.queue q
  v.st == .active && v.sqHead != v.sqTail && decide (v.outstanding ≥ s.qLimit q)

/-- The queue that an intake serves: the highest PRIO, and round-robin within it from the one after the queue served
last (R472). -/
def State.pickQueue (s : State) (intake : Nat) : Option Nat :=
  let qs := (s.host.queues.map (·.1)).filter (fun q => s.qOwner q == intake + 1 && s.readable q != 0)
  let best := qs.foldl (fun a q => max a (s.qPrio q)) 0
  let top := qs.filter (fun q => s.qPrio q == best)
  let last := s.host.lastServed.get 0 (4 * intake + best)
  match top.find? (fun q => decide (q > last)) with
  | some q => some q
  | none => top.head?

/-- Reads the next entries of a queue's ring (R470, R472). -/
def State.readRing (s : State) (q : Nat) : State :=
  let n := s.readable q
  let v := s.queue q
  let first := v.sqHead
  let s := s.setQueue q { v with sqHead := (first + n) % s.qSize q, unrec := v.unrec + n }
  let a := s.sqBase q + 64 * first
  if s.qLoc q = 1 then
    if !s.qPartOk q then (upTo n).foldl (fun s i => s.recordNoTag q (first + i) 0xA0 false) s
    else
      let r := s.readHbm (some (s.qPart q)) a (64 * n)
      if r.bad then r.st.ringFail q first n else r.st.ringArrive q first r.bytes
  else
    let p := (s.qPort q).getD 0
    let k := s.host.nextRead
    (s.setHost { s.host with
      reads := s.host.reads.put k { port := p, addr := a, len := 64 * n, use := .ring q first n }, nextRead := k + 1 }).emit
      (.hostRead p k a (64 * n))

/-- DESCRIPTOR_READ (R472): intake 0 is H0's, 1 is H1's, 2 serves internal queues. It passes what waits, notes queues that
pause on LIMIT, and reads one ring. -/
def execDescriptorRead (intake : Fin 3) (s : State) : Host.Outcome State Fault Refusal :=
  let mine := (s.host.queues.map (·.1)).filter (fun q => s.qOwner q == intake.val + 1)
  let s := mine.foldl (fun s q => s.passFetched q (s.queue q).fetched.length) s
  let s := (mine.filter s.limitPaused).foldl (fun s q => s.setFld (hqBase q + 0x28) 3 1 1) s
  match s.pickQueue intake.val with
  | none => .next s
  | some q =>
    let s := s.setHost { s.host with lastServed := s.host.lastServed.put (4 * intake.val + s.qPrio q) q }
    .next (s.readRing q)

end Sys2Proof.Machine
end

