-- ==== Sys2Proof/Machine/Matrix.lean ====
section
/-!
DEFINITION. Machine/Matrix.lean: the matrix engine (R101 to R133) and accumulator slots (R134 to R149): tile steps, the
fold of groups, handles, check failures, and the run of an MMA.
-/
namespace Sys2Proof.Machine

/-! ### Chain hand-overs (R258, R259, R262), shared by the engines of a CHAIN -/

def Run.stage (r : Run) (k : Nat) : StageRun := r.stages.getD k {}

def Run.setStage (r : Run) (k : Nat) (x : StageRun) : Run := { r with stages := r.stages.set k x }

def Run.isChain (r : Run) : Bool := Desc.cls r.cmd.desc == 3

/-- Rounds of a command: those of a CHAIN, or one. -/
def Run.rounds (r : Run) : Nat := if r.isChain then Desc.f r.cmd.desc 0x18 0 16 + 1 else 1

def Run.desc (r : Run) (k : Nat) : Desc := r.cmd.descs.getD k 0

/-- Hand-over `k`: KIND, DEPTH, and where the entry of a round starts in scratchpad (R256, R258). -/
def Run.handKind (r : Run) (k : Nat) : Nat := if r.isChain then Desc.hand r.cmd.desc k 0 2 else 0
def Run.handDepth (r : Run) (k : Nat) : Nat := Desc.hand r.cmd.desc k 2 3 + 1
def Run.handEntry (r : Run) (k round : Nat) : Nat :=
  256 * Desc.hand r.cmd.desc k 9 15 + round % r.handDepth k * 2 ^ (Desc.hand r.cmd.desc k 5 4 + 8)

/-- Whether the input of stage `k`'s next round is there (R258). -/
def Run.inputFor (r : Run) (k : Nat) : Bool :=
  k == 0 || !r.isChain || r.handKind (k - 1) == 1 || decide ((r.stage (k - 1)).round > (r.stage k).round)

/-- Whether a ring entry is free for the output of stage `k`'s next round (R258). -/
def Run.roomFor (r : Run) (k : Nat) : Bool :=
  decide (k + 1 ≥ r.stages.length) || !r.isChain || r.handKind k != 2
    || decide ((r.stage k).round < (r.stage (k + 1)).round + r.handDepth k)

/-- Whether stage `k` may run its next round (R258). -/
def Run.roundReady (r : Run) (k : Nat) : Bool := !(r.stage k).done && r.inputFor k && r.roomFor k

/-- Whether an overlapped CHAIN's stage must still wait for the CHAIN before it (R262). -/
def State.overlapWait (s : State) (l : Nat) (r : Run) (k : Nat) : Bool :=
  r.isChain && Desc.f r.cmd.desc 0x1B 0 1 == 1 &&
    (s.priorChains l r.cmd).any (fun p =>
      decide (k ≥ Desc.f r.cmd.desc 0x1B 1 3) || shareEngine p.engines (classEngines (Desc.cls (r.desc k))))

/-- A fallback has gone past its cost with the tolerance, or past its turn (R44). -/
def State.pastFallback (s : State) (p : Prog) : Bool :=
  decide (64 * p.fbUsed > 256 * p.fbCost * (64 + p.fbTol)) || p.target != s.turnNo

/-- The command was read from a queue whose port has been reset (R466). -/
def State.portStops (s : State) (c : Cmd) : Bool :=
  match c.ctx with
  | .queue q _ => (s.queue q).st == .error && (s.queue q).cause == 4
  | .thread _ => false

/-- The Doorstop, or a reset of a port, is stopping the command: its engines go on to their next tile boundaries only (R43, R44, R101,
R466), and no replay starts for it (R124). -/
def State.overrunning (s : State) (c : Cmd) : Bool :=
  s.portStops c || match c.prog.bind (fun k => s.turn.progs.find? k) with
  | some p => p.phase == .stopping || p.reset || (p.phase == .fallback && s.pastFallback p)
  | none => false

/-- Whether an engine may go on with a stage of class `cls`: what the Doorstop stops goes on only with a tile that the vector engine
drains (R101). -/
def State.engineMay (s : State) (l : Nat) (c : Cmd) (cls : Nat) : Bool :=
  !s.overrunning c || (cls == 4 && (s.phy (s.under l)).cur.isSome)

/-- Whether stage `k` may proceed now. -/
def State.stageMay (s : State) (l : Nat) (r : Run) (k : Nat) : Bool :=
  !r.done && !r.replaying && decide (k < r.stages.length) && r.roundReady k && !s.overlapWait l r k
    && s.engineMay l r.cmd (Desc.cls (r.desc k)) && !s.preStops l r (Desc.cls (r.desc k))

/-- A stage finishes its round; the command is done when its last stage has run its last round. -/
def Run.endRound (r : Run) (k : Nat) : Run :=
  let x := r.stage k
  let n := x.round + 1
  let r := r.setStage k { round := n, done := decide (n ≥ r.rounds) }
  if r.stages.all (·.done) then { r with done := true } else r

/-! ### Modes and slots -/

/-- Whether a mode's entries are 64-bit, in a slot pair (R136). -/
def MmaMode.wide : MmaMode → Bool
  | .long32 => true
  | .long64 => true
  | _ => false

/-- KIND of a handle (R145). -/
def MmaMode.kind : MmaMode → Nat
  | .zi8 => 1
  | .long32 => 2
  | .long64 => 2
  | _ => 0

/-- MODE of MXE_STATUS (R127). -/
def MmaMode.code : MmaMode → Nat
  | .zf4 => 1
  | .zf8 => 2
  | .zi8 => 3
  | .zf16 => 4
  | .split => 5
  | .long32 => 6
  | .long64 => 7

/-- Groups per tile step (R105). -/
def MmaMode.groups : MmaMode → Nat
  | .zf4 => 16
  | .zf8 => 8
  | .zi8 => 8
  | .zf16 => 4
  | .split => 1
  | .long32 => 8
  | .long64 => 4

/-- The format that the load path widens operands to, where they are in another (R104). -/
def MmaMode.loadFmt : MmaMode → Option Nat
  | .zf16 => some 2
  | .split => some 0
  | .long32 => some 0
  | .long64 => some 1
  | _ => none

/-- Geometry of an output tile (R241). -/
structure TileGeo where
  t : Nat
  rows : Nat
  cols : Nat
  row0 : Nat
  col0 : Nat
  slot : Nat

def Desc.k (d : Desc) : Nat := d.f 0x30 0 20 + 1
def Desc.slotN (d : Desc) : Nat := d.f 0x39 3 3 + 1
def Desc.init (d : Desc) : Bool := d.f 0x39 6 1 == 1
def Desc.keep (d : Desc) : Bool := d.f 0x39 7 1 == 1

def Desc.tileGeo (d : Desc) (t : Nat) : TileGeo :=
  let ti := t / d.tn
  let tj := t % d.tn
  let sl := d.f 0x39 0 3
  { t := t, rows := min 256 (d.f 0x34 0 16 + 1 - 256 * ti), cols := min 256 (d.f 0x36 0 16 + 1 - 256 * tj)
    row0 := 256 * ti, col0 := 256 * tj
    slot := if d.mode.wide then 2 * (sl / 2 + t % d.slotN) else sl + t % d.slotN }

/-- Sub-tiles of a long-mode tile that hold entries (R115). -/
def TileGeo.subs (g : TileGeo) : Nat := ceilDiv g.rows 64 * ceilDiv g.cols 64

/-- Tile steps of an output tile (R101, R105); in split mode each takes four of the six passes of each group (R108, R118). -/
def tileSteps (d : Desc) (g : TileGeo) : Nat :=
  let groups := ceilDiv d.k 32
  match d.mode with
  | .split => ceilDiv (6 * groups) 4
  | m => if m.wide then g.subs * ceilDiv groups m.groups else ceilDiv groups m.groups

/-! ### Accumulator entries (R134, R135) -/

/-- Word `i` of the accumulator memory; an open value where nothing states its contents (R501, R268). -/
def Phys.accWord (p : Phys) (i : Nat) : Word :=
  p.acc.get (match p.accFree.find? (i / 65536), p.free with
    | some n, _ => Config.freeValue 32 (n + i % 65536)
    | none, none => 0
    | none, some n => Config.freeValue 32 (n + 2 ^ 23 + i)) i

/-- Position of entry (r, c) of a tile in slot `slot`. -/
def accIdx (wide : Bool) (slot r c : Nat) : Nat :=
  if wide then 256 * (256 * slot + 2 * r + c / 128) + 2 * (c % 128) else 256 * (256 * slot + r) + c

def Phys.accGet (p : Phys) (wide : Bool) (slot r c : Nat) : Nat :=
  let i := accIdx wide slot r c
  let lo := (p.accWord i).toNat
  if wide then lo + 2 ^ 32 * (p.accWord (i + 1)).toNat else lo

def Phys.accPut (p : Phys) (wide : Bool) (slot r c v : Nat) : Phys :=
  let i := accIdx wide slot r c
  let a := p.acc.put i (BitVec.ofNat 32 v)
  { p with acc := if wide then a.put (i + 1) (BitVec.ofNat 32 (v / 2 ^ 32)) else a }

def Phys.slot (p : Phys) (t : Nat) : Slot := p.slots.get {} t

/-- Sets a slot; the odd slot of a pair shows the same (R138). -/
def Phys.setSlot (p : Phys) (t : Nat) (x : Slot) : Phys :=
  let a := p.slots.put t x
  { p with slots := if x.pair then a.put (t + 1) x else a }

/-- Frees a slot, and the odd slot of a pair with it. -/
def Phys.freeSlot (p : Phys) (t : Nat) : Phys :=
  let a := p.slots.put t {}
  { p with slots := if (p.slot t).pair then a.put (t + 1) {} else a }

/-! ### Operands (R104, R106) -/

/-- Element k of row r of an operand: its value in the mode, and the flags of widening it. -/
def Phys.operand (p : Phys) (m : MmaMode) (fmt base stride sbase sstride r k : Nat) : Val × Fl :=
  let bits := elemBits fmt
  let a := base / 16 * 16 + r * (stride / 16 * 16) + k * bits / 8
  let x := if bits = 4 then (p.spdByte a).toNat / 16 ^ (k % 2) % 16 else p.spdN a (bits / 8)
  let zs := if fmt = 5 then (p.spdByte (sbase + r * sstride + k / 32)).toNat else 0
  let v := elemVal fmt x zs
  match m.loadFmt with
  | none => (v, 0)
  | some f =>
    if f = fmt then (v, 0)
    else
      let w := widen f v
      (elemVal f w.1 0, w.2)

/-- Where a stage's operands start in a round: a ring relocates one of them (R258). -/
def Run.mmaBases (r : Run) (k : Nat) : Nat × Nat :=
  let d := r.desc k
  let a := d.f 0x10 0 32
  let b := d.f 0x18 0 32
  if k ≠ 0 ∧ r.handKind (k - 1) = 2 then
    let e := r.handEntry (k - 1) (r.stage k).round
    if Desc.hand r.cmd.desc (k - 1) 24 1 = 0 then (e + a, b) else (a, e + b)
  else (a, b)

/-- The products of one group for output (row, col) of the operands, and the widening flags. -/
def Phys.groupOf (p : Phys) (d : Desc) (bases : Nat × Nat) (row col g : Nat) : List (Val × Val) × Fl :=
  let ks := (upTo (min 32 (d.k - 32 * g))).map (32 * g + ·)
  let xs := ks.map (fun k =>
    (p.operand d.mode (d.f 0x38 0 4) bases.1 (d.f 0x14 0 32) (d.f 0x20 0 32) (d.f 0x24 0 32) row k,
     p.operand d.mode (d.f 0x38 4 4) bases.2 (d.f 0x1C 0 32) (d.f 0x28 0 32) (d.f 0x2C 0 32) col k))
  (xs.map (fun x => (x.1.1, x.2.1)), xs.foldl (fun f x => f ||| x.1.2 ||| x.2.2) 0)

/-- An integer operand of ZI8 mode. -/
def valInt : Val → Int
  | .fin n m _ => if n then -(m : Int) else m
  | _ => 0

/-- Work on one group in a tile step: in split mode, passes `first` to `first + n − 1` of it. -/
structure GroupPart where
  g : Nat
  first : Nat := 0
  n : Nat := 1

/-- Folds one group, or passes of it, into an entry (R110, R113, R118); `off` is an error of the window. -/
def foldEntry (d : Desc) (w : GroupPart) (c : Nat) (ab : List (Val × Val)) (off : Int := 0) : Nat × Fl :=
  match d.mode with
  | .zi8 =>
    let r := foldInt (signed 32 c) (ab.map (fun x => (valInt x.1, valInt x.2))) off
    (unsigned 32 r.1, r.2)
  | .split => foldSplit w.first w.n (vB32 c) ab off
  | .long32 => foldGroup pB64 (d.f 0x3A 1 3) (vB64 c) ab off
  | .long64 => foldGroup pB64 (d.f 0x3A 1 3) (vB64 c) ab off
  | _ => foldGroup pB32 0 (vB32 c) ab off

/-- Four passes from pass `a` on, of groups of six (R118). -/
def splitParts (groups a : Nat) : List GroupPart :=
  let n := min 4 (6 * groups - a)
  let n₁ := min n (6 - a % 6)
  { g := a / 6, first := a % 6, n := n₁ } :: (if n₁ < n then [{ g := a / 6 + 1, n := n - n₁ }] else [])

/-- What a tile step works on: the entries (r, c) of the tile, and its groups. -/
def stepWork (d : Desc) (g : TileGeo) (step : Nat) : List (Nat × Nat) × List GroupPart :=
  let groups := ceilDiv d.k 32
  let m := d.mode
  let all := (upTo g.rows).flatMap (fun r => (upTo g.cols).map (fun c => (r, c)))
  let run (i : Nat) : List GroupPart := (upTo (min m.groups (groups - i * m.groups))).map (fun j => { g := i * m.groups + j })
  if m = .split then (all, splitParts groups (4 * step))
  else if m.wide then
    let per := ceilDiv groups m.groups
    let sub := step / per
    let cb := ceilDiv g.cols 64
    let r0 := 64 * (sub / cb)
    let c0 := 64 * (sub % cb)
    (all.filter (fun x => decide (r0 ≤ x.1 ∧ x.1 < r0 + 64 ∧ c0 ≤ x.2 ∧ x.2 < c0 + 64)), run (step % per))
  else (all, run step)

/-- By how much an error moves the window of a cell in a group, and the significand that its rounding keeps. -/
def ArrayErr.winOff (e : Option ArrayErr) (r c g : Nat) : Int :=
  match e with
  | some e => if e.kind = .window ∧ e.row.val = r ∧ e.col.val = c ∧ e.group.val = g % 16384 then e.delta else 0
  | none => 0

def ArrayErr.keptOff (e : Option ArrayErr) (r c g : Nat) : Int :=
  match e with
  | some e => if e.kind = .rounded ∧ e.row.val = r ∧ e.col.val = c ∧ e.group.val = g % 16384 then e.delta else 0
  | none => 0

/-- An encoding whose significand went wrong. -/
def keptWrong (wide : Bool) (x : Nat) (off : Int) : Nat := if off = 0 then x else unsigned (if wide then 64 else 32) (x + off)

/-- Carries out the array work of a tile step: the core with its entries folded, the array flags and the load flags. An error
that no check finds goes into the entry. -/
def Phys.tileStep (p : Phys) (d : Desc) (bases : Nat × Nat) (g : TileGeo) (step : Nat) (err : Option ArrayErr := none) :
    Phys × Fl × Fl :=
  let (es, gs) := stepWork d g step
  es.foldl (fun (q : Phys × Fl × Fl) e =>
    gs.foldl (fun (q : Phys × Fl × Fl) w =>
      let (ab, lf) := p.groupOf d bases (g.row0 + e.1) (g.col0 + e.2) w.g
      let (x, f) := foldEntry d w (q.1.accGet d.mode.wide g.slot e.1 e.2) ab (ArrayErr.winOff err e.1 e.2 w.g)
      let x := keptWrong d.mode.wide x (ArrayErr.keptOff err e.1 e.2 w.g)
      (q.1.accPut d.mode.wide g.slot e.1 e.2 x, q.2.1 ||| f, q.2.2 ||| lf)) q) (p, 0, 0)

/-! ### The checks of the array (R121 to R123) -/

/-- 2^s modulo 3 is (−1)^s, modulo 7 it is 2^(s mod 3), and modulo 2^61 − 1 it is 2^(s mod 61). -/
def pow2Mod (m s : Nat) : Nat :=
  if m = 3 then (if s % 2 = 0 then 1 else 2) else if m = 7 then 2 ^ (s % 3) else 2 ^ (s % 61)

def checksumMod : Nat := 2 ^ 61 - 1

/-- The units in which significands and windows are compared: below every exponent of an operand, and of a product. -/
def operandUnit : Int := -2048
def windowUnit : Int := -4096

/-- The residue of a value in units of 2^u, formed from the residue of its significand. -/
def resid (m : Nat) (u : Int) : Val → Int
  | .fin n x q => (if n then -1 else 1) * (x % m : Nat) * pow2Mod m (q - u).toNat
  | _ => 0

/-- The window of a cell before its rounding: the entry, the products, and what the loop of R110 leaves. -/
structure Window where
  c : Val
  ab : List (Val × Val)
  acc : GroupAcc

/-- The window of cell (r, c) of a tile for a group, or for its first pass in this step, with an error. -/
def Phys.window (p : Phys) (d : Desc) (bases : Nat × Nat) (g : TileGeo) (w : GroupPart) (off : Int) (r c : Nat) : Window :=
  let ab := (p.groupOf d bases (g.row0 + r) (g.col0 + c) w.g).1
  let ab := if d.mode = .split then splitTerms ab (splitPasses.getD w.first (0, 0)) else ab
  let x := p.accGet d.mode.wide g.slot r c
  let v := if d.mode = .zi8 then intVal (signed 32 x) else if d.mode.wide then vB64 x else vB32 x
  { c := v, ab := ab, acc := (groupLoop (accLim (if d.mode.wide then pB64 else pB32)) v ab).off off }

/-- The residue that the operands predict for a window (R121). -/
def Window.predict (m : Nat) (w : Window) : Int :=
  w.ab.foldl (fun t p => t + resid m operandUnit p.1 * resid m operandUnit p.2) (resid m windowUnit w.c) % m

/-- The residue of the window that was formed. -/
def Window.formed (m : Nat) (w : Window) : Int := w.acc.win * pow2Mod m (w.acc.q - windowUnit).toNat % m

/-- Whether a group takes part in the checks: its result is no NaN and no infinity (R123). -/
def Window.checked (d : Desc) (w : Window) : Bool :=
  let f := if d.mode.wide then pB64 else pB32
  d.mode == .zi8 || ((w.acc.special f).isNone
    && (match decodeIeee f (w.acc.round f (if d.mode.wide then d.f 0x3A 1 3 else 0)).1 with
      | .fin _ _ _ => true
      | _ => false))

/-- The checksum of a line of cells (R122), modulo 2^61 − 1: what the checksum cell forms from the operands summed along the line,
the operands that the line shares, and the entries; and the sum of the windows. A column sums the first operands, a row the second. -/
def lineSums (col : Bool) (ws : List Window) : Int × Int :=
  let m := checksumMod
  let pick (first : Bool) (p : Val × Val) : Int := resid m operandUnit (if first then p.1 else p.2)
  let ab := (ws.map (·.ab)).headD []
  let sums := (upTo ab.length).map (fun k => (ws.map (fun w => ((w.ab[k]?).map (pick col)).getD 0)).sum)
  let formed := ((sums.zip (ab.map (pick (!col)))).map (fun x => x.1 * x.2)).sum
  ((formed + (ws.map (fun w => resid m windowUnit w.c)).sum) % (m : Int), (ws.map (Window.formed m)).sum % (m : Int))

/-- The compares that fail because of an error in a group, in the order in which they complete: residue modulo 3 (0) or 7 (1), then
column (2) and row (3) checksum (R121, R122). `rows` and `cols` are the cells that the group is formed in, `win` gives their windows
with the error. DEDUCED (notes/assumptions/60.md): the residue compare of a group counts once, and each checksum once; the checksums
include the entries from which the windows start. -/
def failingIn (checked : Window → Bool) (win : Nat → Nat → Window) (rows cols : List Nat) (e : ArrayErr) : List (Fin 4) :=
  let r := e.row.val
  let c := e.col.val
  let line (col : Bool) : Bool :=
    let ws := (if col then rows.map (fun i => win i c) else cols.map (fun j => win r j)).filter checked
    let x := lineSums col ws
    let off := if (e.kind = .column ∧ col) ∨ (e.kind = .row ∧ !col) then e.delta else 0
    !ws.isEmpty && (x.1 + off) % (checksumMod : Int) != x.2
  let kept : Int := if e.kind = .rounded then e.delta else 0
  let here := rows.contains r && cols.contains c
  let bad (m : Nat) : Bool := here && checked (win r c) && ((win r c).predict m != (win r c).formed m || kept % (m : Int) != 0)
  (if bad 3 then [0] else if bad 7 then [1] else [])
    ++ (if cols.contains c && line true then [2] else []) ++ (if rows.contains r && line false then [3] else [])

/-- The compares of a tile step that fail because of an error. -/
def Phys.failing (p : Phys) (d : Desc) (bases : Nat × Nat) (g : TileGeo) (step : Nat) (e : ArrayErr) : List (Fin 4) :=
  let (es, gs) := stepWork d g step
  match gs.find? (fun w => w.g % 16384 == e.group.val) with
  | none => []
  | some w =>
    failingIn (Window.checked d) (fun r c => p.window d bases g w (ArrayErr.winOff (some e) r c w.g) r c)
      ((es.map (·.1)).eraseDups) ((es.map (·.2)).eraseDups) e

/-! ### Starting an MMA (R142) -/

/-- The accumulator checks of R142 on a stage, as the engine takes it. -/
def State.mmaCheck (s : State) (l : Nat) (c : Cmd) (d : Desc) : Option Nat :=
  let sl := d.f 0x39 0 3
  let wide := d.mode.wide
  if (wide && (sl % 2 == 1 || decide (sl / 2 + d.slotN > 4))) || (!wide && decide (sl + d.slotN > 8)) then some 0x60
  else if !d.init then none
  else
    let x := (s.phy (s.under l)).slot sl
    if x.st ≠ .kept ∨ x.core ≠ l ∨ !sameCtx x.core x.ctx l c.ctx then some 0x61
    else if x.pair ≠ wide then some 0x62
    else if x.count ≥ 16 then some 0x63 else none

/-! ### Tile steps -/

/-- The running command of a core whose stage `k` is an MMA. -/
def State.mmaRun (s : State) (l k : Nat) : Option Run :=
  (s.core l).running.find? (fun r => !r.done && Desc.cls (r.desc k) == 1 && decide (k < r.stages.length))

/-- A tile step of some stage is in the array. -/
def State.arrayBusy (s : State) (l : Nat) : Bool :=
  (s.core l).running.any (fun r => r.stages.any (·.busy))

/-- Whether a higher MMA stage of the command can proceed (R259). -/
def State.higherMma (s : State) (l : Nat) (r : Run) (k : Nat) : Bool :=
  (upTo r.stages.length).any (fun j => decide (j > k) && Desc.cls (r.desc j) == 1 && s.stageMay l r j
    && (let g := (r.desc j).tileGeo (r.stage j).tile
        (r.stage j).step != 0 || ((s.phy (s.under l)).slot g.slot).st == .free))

/-- Places in the Hatch that output tiles in progress on core `l` have reserved (R102). -/
def State.reservedOn (s : State) (l : Nat) : Nat :=
  ((s.core l).running.map (fun r => (r.stages.filter (·.reserved)).length)).sum

/-- Waits of the matrix engine that a tile-step start meets: the accumulator tile, then room in the Hatch (R102, R140). -/
def State.stepBlocked (s : State) (l : Nat) (d : Desc) (x : StageRun) : Bool × Bool :=
  let p := s.phy (s.under l)
  let g := d.tileGeo x.tile
  if x.step ≠ 0 then (false, false)
  else
    let st := (p.slot g.slot).st
    let free := if d.init then st == .kept else st == .free && (!d.mode.wide || (p.slot (g.slot + 1)).st == .free)
    (!free, !d.keep && decide (p.hatch.length + s.reservedOn l ≥ 8))

/-- Byte ranges of accumulator memory that the entries of a tile take, row by row. -/
def tileBytes (d : Desc) (g : TileGeo) : List (Nat × Nat) :=
  (upTo g.rows).map (fun r => (4 * accIdx d.mode.wide g.slot r 0, (if d.mode.wide then 8 else 4) * g.cols))

/-- An output tile starts from zero (R109). -/
def Phys.zeroTile (p : Phys) (d : Desc) (g : TileGeo) : Phys :=
  let p := (upTo g.rows).foldl (fun p i => (upTo g.cols).foldl (fun p j => p.accPut d.mode.wide g.slot i j 0) p) p
  (tileBytes d g).foldl (fun p b => p.wrote .acc b.1 b.2) p

/-- Starts the next tile step of stage `k` (R102): at the first step of an output tile the slot becomes FILLING, starts
from zero unless INIT continues it (R109), and the handle's place is reserved. A step that must wait shows in the status and the
counters as a stage that has started (R127, R132). -/
def State.startStep (s : State) (l : Nat) (r : Run) (k : Nat) : State :=
  let d := r.desc k
  let x := r.stage k
  let i := s.under l
  let p := s.phy i
  let (acc, hat) := s.stepBlocked l d x
  if s.mxStops l r then s
  else if acc || hat then
    (s.setPhy i { p with mxAccWait := acc, mxHatchWait := hat }).setRun l (r.setStage k { x with started := true })
  else
    let g := d.tileGeo x.tile
    let p := { p with mxAccWait := false, mxHatchWait := false }
    let p :=
      if x.step ≠ 0 then p
      else
        let old := p.slot g.slot
        let n := if d.init then old.count + 1 else 1
        let part : ChainPart := { id := r.cmd.id, desc := d, tile := x.tile, aBase := (r.mmaBases k).1, bBase := (r.mmaBases k).2 }
        let p := p.setSlot g.slot
          { st := .filling, pair := d.mode.wide, kind := d.mode.kind, core := l, ctx := r.cmd.ctx, count := n, cmd := r.cmd.id
            parts := (if d.init then old.parts else []) ++ [part] }
        if d.init then p else p.zeroTile d g
    (s.setPhy i p).setRun l (r.setStage k { x with busy := true, started := true, reserved := !d.keep })

/-- An MMA stage that has no input waits with ACC_WAIT (R260). DEDUCED (notes/assumptions/60.md): of the counters that R260 names,
MXE_STALL_ACC is the one for it. -/
def State.mmaWaits (s : State) (l : Nat) (r : Run) (k : Nat) : State :=
  if r.done || r.replaying || s.arrayBusy l || r.roundReady k || (r.stage k).done then s
  else
    let i := s.under l
    (s.setPhy i { s.phy i with mxAccWait := true, mxHatchWait := false }).setRun l (r.setStage k { r.stage k with started := true })

/-- TILE_STEP_START (R102). -/
def execTileStepStart (c : Fin 128) (stage : Fin 6) (s : State) : Host.Outcome State Fault Refusal :=
  let l := c.val
  let k := stage.val
  match s.mmaRun l k with
  | some r =>
    if s.present l && !s.arrayBusy l && s.stageMay l r k && !s.higherMma l r k then .next (s.startStep l r k)
    else .next (s.mmaWaits l r k)
  | none => .next s

/-- The handle of a finished tile (R145). -/
def handleOf (d : Desc) (g : TileGeo) (tag thread : Nat) : BitVec 64 :=
  BitVec.ofNat 64 (g.slot + b2n d.mode.wide * 8 + d.mode.kind * 16 + (g.rows - 1) * 2 ^ 6 + (g.cols - 1) * 2 ^ 14
    + b2n (decide (g.t + 1 = d.tm * d.tn)) * 2 ^ 22 + g.t % 65536 * 2 ^ 24 + tag * 2 ^ 40 + thread * 2 ^ 52)

/-- The last tile step of a tile has passed its checks (R103, R138): the slot is KEPT, or its handle is pushed. -/
def Phys.endTile (p : Phys) (d : Desc) (g : TileGeo) (tag thread : Nat) : Phys :=
  let x := p.slot g.slot
  if d.keep then p.setSlot g.slot { x with st := .kept }
  else { p.setSlot g.slot { x with st := .ready } with hatch := p.hatch ++ [handleOf d g tag thread] }

/-- HAT_STATUS.HIGH of physical core `i` follows COUNT (R162). -/
def State.noteHigh (s : State) (i : Nat) : State :=
  let high := coreWin i + 0x1104
  s.setFld high 8 4 (max (s.fld high 8 4) (s.phy i).hatch.length)

/-- A tile step completes: with an error that no check finds, or with none. -/
def State.passStep (s : State) (l : Nat) (r : Run) (k : Nat) (err : Option ArrayErr := none) : State :=
  let d := r.desc k
  let x := r.stage k
  let i := s.under l
  let g := d.tileGeo x.tile
  let (p, f, lf) := (s.phy i).tileStep d (r.mmaBases k) g x.step err
  let r := { r with sets := r.sets ++ [(0, f), (2, lf)] }
  if x.step + 1 < tileSteps d g then (s.setPhy i p).setRun l (r.setStage k { x with step := x.step + 1, busy := false })
  else
    let p := p.endTile d g r.cmd.tag (ctxThread r.cmd.ctx)
    let n := x.tile + 1
    let r := if n < d.tm * d.tn then r.setStage k { x with tile := n, step := 0, busy := false, reserved := false } else r.endRound k
    ((s.setPhy i p).setRun l r).noteHigh i

/-! ### Commands that stop -/

/-- Slots that an MMA stage of the command continues and has not begun to write: KEPT by the chain (R141, R148). -/
def State.chainKept (s : State) (l : Nat) (c : Cmd) : List Nat :=
  let p := s.phy (s.under l)
  (c.descs.filter (fun d => Desc.cls d == 1 && Desc.init d)).flatMap (fun d =>
    ((upTo (d.tm * d.tn)).map (fun t => (d.tileGeo t).slot)).eraseDups.filter (fun t =>
      let x := p.slot t
      x.st == .kept && sameCtx x.core x.ctx l c.ctx))

/-- Handles of a command that the Hatch holds. -/
def Phys.handlesOf (p : Phys) (id : Nat) : List (BitVec 64) := p.hatch.filter (fun h => (p.slot (bits h 0 3)).cmd == id)

/-- Removes a stopped command's handles, its tile slots that nothing drains, and the KEPT slots of its chain; handles of other
commands keep their order (R148, R243, R261). Its reservations end with it (R102). -/
def State.dropTiles (s : State) (l : Nat) (r : Run) : State :=
  let i := s.under l
  let p := s.phy i
  let owned := (upTo 8).filter (fun t =>
    let x := p.slot t
    x.cmd == r.cmd.id && (x.st == .kept || x.st == .ready || x.st == .filling || x.st == .poisoned))
  let gone := owned ++ s.chainKept l r.cmd
  let p' := gone.foldl (fun p t => p.freeSlot t) { p with
    hatch := p.hatch.filter (fun h => (p.slot (bits h 0 3)).cmd != r.cmd.id), mxAccWait := false, mxHatchWait := false }
  let s := { s with sill := { s.sill with redo := s.sill.redo.filter (fun x => x.id != r.cmd.id) } }
  let s := s.setPhy i p'
  match s.runOf l r.cmd.id with
  | some r => s.setRun l { r with stages := r.stages.map (fun x => { x with busy := false, reserved := false }) }
  | none => s

/-- The same at a stop by the Doorstop, or of a command that nothing can drain: the handles count in HAT_DROP (R148, R243). -/
def State.dropHandles (s : State) (l : Nat) (r : Run) : State :=
  let i := s.under l
  let n := ((s.phy i).handlesOf r.cmd.id).length
  (s.dropTiles l r).bump (coreWin i + 0x1118) n

/-- The drain of the current tile retires: its slot becomes FREE (R138, R176). -/
def Phys.retireTile (p : Phys) : Phys :=
  match p.cur with
  | some h => { p.freeSlot (bits h 0 3) with cur := none }
  | none => p

/-- Stages of the command that run on the vector engine and have begun. -/
def Run.inVector (r : Run) : Bool := r.stages.zipIdx.any (fun x => x.1.started && !x.1.done && Desc.cls (r.desc x.2) == 4)

/-- A CHAIN that has stopped gives up its tiles, and the tile that its vector stage drains, before it retires (R261, R176). -/
def State.settle (s : State) (l : Nat) (r : Run) : State :=
  if !r.isChain || r.status = 0 then s
  else
    let i := s.under l
    let p := s.phy i
    (if r.inVector then s.setPhy i { p.retireTile with hatchWait := false, sinkWait := false } else s).dropTiles l r

/-! ### Check failures and replays (R123, R143, R519) -/

/-- Records a mismatch of the checks of R121 and R122 against physical core `i` (R123, R130, R131). -/
def State.chkMismatch (s : State) (i kind row col group : Nat) : State :=
  let w := coreWin i + 0x1000
  let code := kind / 2 + (if kind = 1 ∨ kind = 3 then 2 else 0)
  let last := code + row * 4 + col * 2 ^ 10 + group % 16384 * 2 ^ 18
  let s := if kind < 2 then s.bumpFld (w + 0x0C) 0 16 1 else s.bumpFld (w + 0x0C) 16 16 1
  s.setReg (w + 0x10) (BitVec.ofNat 32 last)

/-- SEV of a check failure (R618): 1, or 2 where a replay fails. -/
def chkSev (replay : Bool) : Nat := if replay then 2 else 1

/-- Every failing compare counts and is recorded; the failure is one entry in the fault record (R123). -/
def State.chkFailures (s : State) (i : Nat) (replay : Bool) (e : ArrayErr) (fails : List (Fin 4)) : State :=
  let s := fails.foldl (fun s k => s.chkMismatch i k.val e.row.val e.col.val e.group.val) s
  s.fault 0x01 (chkSev replay) (s.reg (coreWin i + 0x1010)).toNat i 0

/-- A stage of an MMA as it stands at the first step of the tile that failed. -/
def StageRun.fromStep0 (x : StageRun) : StageRun := { x with step := 0, busy := false, reserved := false }

/-- Where a command's replay begins (R519): an MMA at the tile that failed, as the handles of earlier tiles are out; a stream VOP at
the tile in hand; every other command, a CHAIN from round 0, at its beginning. DEDUCED (notes/assumptions/15.md). -/
def Run.restart (r : Run) (stream keepsTile : Bool) : Run :=
  let clean : Run := { r with
    stages := r.stages.map (fun _ => {}), sets := [], sums := [], g0 := [], changed := false
    folds := r.folds.map (fun f => (f.1, { f.2 with mag := 0, sats := 0, any := false })) }
  match Desc.cls r.cmd.desc with
  | 1 => { r with stages := r.stages.map StageRun.fromStep0 }
  | 4 => if stream then { r with stages := r.stages.map (fun x => { x with busy := false }) } else { clean with regain := keepsTile }
  | 2 => clean
  | 3 => { clean with status := 0, issuedAll := false }
  | _ => r

/-- Whether the run of a vector command is in stream mode. -/
def Run.streams (r : Run) : Bool := (r.desc 0).f 0x16 0 1 == 1

/-- Physical index of panel `p`'s spare (SIL_PANEL.SPARE). -/
def State.spareOf (s : State) (p : Nat) : Option Nat :=
  let q := s.fld (Reg.silPanel p) 2 5
  if q < 17 then some (17 * p + q) else none

/-- Charges one check failure to physical core `i` (R544). -/
def State.charge (s : State) (i : Nat) : State := s.bumpFld (Reg.silCoreChk i) 0 8 1

/-- The physical core that carries a command out: in a replay the panel's spare, where there is one (R519, R522). -/
def State.runsOn (s : State) (l : Nat) (r : Run) : Nat :=
  if r.again then (s.spareOf (s.under l / 17)).getD (s.under l) else s.under l

/-- A command completes with SILL_CHECK_FAILED: event and fault entry, charged to physical core `i` (R521, R525). -/
def State.checkFailed (s : State) (i : Nat) : State := (s.raise 3 1).fault 0x0D 2 0x30 i 0

/-- A command that failed a check stops, and joins its panel's replays: its engines are held (R519, R520). Where the Doorstop stops it,
no replay starts (R124); where it is a replay, the replay has failed (R521). -/
def State.askReplay (s : State) (l id : Nat) : State :=
  match s.runOf l id with
  | none => s
  | some r =>
    let i := s.under l
    let settled := { r with stages := r.stages.map (fun x => { x with busy := false }) }
    if s.overrunning r.cmd then s.setRun l settled
    else if r.again then
      let j := s.runsOn l r
      let s := (((s.setRun l settled).dropTiles l r).checkFailed j).finish l id 0x30
      if j = i then s else s.charge j
    else
      let s := if r.isChain then s.dropTiles l r else s
      let s := if r.isChain && r.inVector then s.setPhy i (s.phy i).retireTile else s
      let keeps := !r.isChain && Desc.cls r.cmd.desc == 4 && (s.phy i).cur.isSome
      let s := s.setRun l { r.restart r.streams keeps with replaying := true }
      let sp := s.sill.spares.get {} (i / 17)
      { s with sill := { s.sill with spares := s.sill.spares.put (i / 17) { sp with queue := sp.queue ++ [(l, id)] } } }

/-- The entries of a tile are formed again from the first command of its chain (R143): the commands before this one, whole. -/
def Phys.rebuild (p : Phys) (parts : List ChainPart) : Phys :=
  match parts with
  | [] => p
  | f :: _ =>
    let p := p.zeroTile f.desc (Desc.tileGeo f.desc f.tile)
    parts.foldl (fun p c =>
      let g := Desc.tileGeo c.desc c.tile
      (upTo (tileSteps c.desc g)).foldl (fun p i => (p.tileStep c.desc (c.aBase, c.bBase) g i).1) p) p

/-- Gives the tile that failed back its state before the command began it: FREE, or KEPT with what the chain had folded. -/
def State.rewindTile (s : State) (l : Nat) (r : Run) : State :=
  if Desc.cls r.cmd.desc ≠ 1 then s
  else
    let d := r.desc 0
    let i := s.under l
    let p := s.phy i
    let t := (d.tileGeo (r.stage 0).tile).slot
    let x := p.slot t
    if x.cmd ≠ r.cmd.id ∨ !(x.st == .filling || x.st == .free) then s
    else
      let old := x.parts.dropLast
      let p := p.freeSlot t
      if !d.init then s.setPhy i p
      else s.setPhy i ((p.rebuild old).setSlot t
        { x with st := .kept, parts := old, count := x.count - 1, cmd := ((old.getLast?).map (·.id)).getD 0 })

/-! ### Storage errors of tile slots (R150, R151) -/

/-- The slot whose rows hold a byte of accumulator memory; a pair is its even slot. -/
def Phys.slotAt (p : Phys) (a : Nat) : Nat :=
  let t := a / 2 ^ 18 % 8
  if (p.slot (t / 2 * 2)).pair then t / 2 * 2 else t

/-- A slot becomes POISONED (R138, R150). A tile that its command had finished is filled again by a replay of its chain; one that
fills is replayed with the command that fills it. Nothing pops a KEPT slot: it is FREE until it is filled again. -/
def State.poisonSlot (s : State) (t i : Nat) (h : Option (BitVec 64)) : State :=
  let p := s.phy i
  let x := p.slot t
  let s := s.setPhy i (p.setSlot t { x with st := if x.st = .kept then .free else .poisoned })
  if x.st = .filling then s
  else
    let sp := s.sill.spares.get {} (i / 17)
    { s with sill := { s.sill with
      redo := s.sill.redo ++ [{ core := x.core, id := x.cmd, at_ := t, slot := x, handle := h }]
      spares := s.sill.spares.put (i / 17)
        (if sp.queue.contains (x.core, x.cmd) then sp else { sp with queue := sp.queue ++ [(x.core, x.cmd)] }) } }

/-- The handle of a slot, if it is in the Hatch or its tile is current. -/
def Phys.handleAt (p : Phys) (t : Nat) : Option (BitVec 64) := (p.hatch ++ p.cur.toList).find? (fun h => bits h 0 3 == t)

/-- Reads byte ranges of accumulator memory (R150): an uncorrectable word poisons its slot when a command's tile is in it. -/
def State.accRead (s : State) (i : Nat) (rs : List (Nat × Nat)) : Bool × State :=
  let bad := ((s.phy i).accUps.filter (fun u => decide (u.2 ≥ 2) && inRanges rs u.1)).map (fun u => (s.phy i).slotAt (8 * u.1))
  let (b, s) := s.eccRead i .acc rs
  (b, bad.eraseDups.foldl (fun s t =>
    let st := ((s.phy i).slot t).st
    if st == .free || st == .poisoned then s else s.poisonSlot t i ((s.phy i).handleAt t)) s)

/-- Byte ranges of scratchpad that a tile step reads: the fragments of its groups, row by row, and their scales. -/
def operandBytes (d : Desc) (bases : Nat × Nat) (g : TileGeo) (step : Nat) : List (Nat × Nat) :=
  let (es, gs) := stepWork d g step
  let lo := 32 * ((gs.map (·.g)).headD 0)
  let n := min d.k (32 * ((gs.map (·.g)).foldl max 0 + 1)) - lo
  let side (fmt base stride sb ss row : Nat) : List (Nat × Nat) :=
    (base / 16 * 16 + row * (stride / 16 * 16) + lo * elemBits fmt / 8, fmtBytes fmt n)
      :: (if fmt = 5 then [(sb + row * ss + lo / 32, ceilDiv n 32)] else [])
  (es.map (·.1)).eraseDups.flatMap (fun r =>
      side (d.f 0x38 0 4) bases.1 (d.f 0x14 0 32) (d.f 0x20 0 32) (d.f 0x24 0 32) (g.row0 + r))
    ++ (es.map (·.2)).eraseDups.flatMap (fun c =>
      side (d.f 0x38 4 4) bases.2 (d.f 0x1C 0 32) (d.f 0x28 0 32) (d.f 0x2C 0 32) (g.col0 + c))

/-- The storage that a tile step reads is checked (R150, R372): whether a word of it is uncorrectable. -/
def State.stepRead (s : State) (l : Nat) (r : Run) (k : Nat) : Bool × State :=
  let d := r.desc k
  let x := r.stage k
  let i := s.under l
  let g := d.tileGeo x.tile
  let (b, s) := s.eccRead i .spd (operandBytes d (r.mmaBases k) g x.step)
  let (c, s) := s.accRead i (tileBytes d g)
  (b || c, s)

/-- The stop of R150 completes: the poisoned slot is FREE (R138). What its chain has folded is noted for the replay. -/
def State.freePoisoned (s : State) (i t : Nat) : State :=
  let p := s.phy i
  let x := p.slot t
  if x.st = .poisoned then s.setPhy i (p.setSlot t { x with st := .free }) else s

/-- A tile step completes (R103, R123, R150): it passes, or its command stops for a replay. -/
def State.completeStep (s : State) (l : Nat) (r : Run) (k : Nat) (err : Option ArrayErr) : State :=
  let i := s.under l
  let (bad, s) := s.stepRead l r k
  if bad then (s.askReplay l r.cmd.id).freePoisoned i ((r.desc k).tileGeo (r.stage k).tile).slot
  else match err with
    | none => s.passStep l r k
    | some e =>
      match (s.phy i).failing (r.desc k) (r.mmaBases k) ((r.desc k).tileGeo (r.stage k).tile) (r.stage k).step e with
      | [] => s.passStep l r k err
      | fs => (s.chkFailures (s.runsOn l r) r.again e fs).askReplay l r.cmd.id

/-- TILE_STEP_COMPLETE (R103, R123). A tile step of a command that has been stopped ends without effect. -/
def execTileStepComplete (c : Fin 128) (err : Option ArrayErr) (s : State) : Host.Outcome State Fault Refusal :=
  let l := c.val
  match (s.core l).running.find? (fun r => r.stages.any (·.busy)) with
  | none => .next s
  | some r =>
    let k := (r.stages.findIdx? (·.busy)).getD 0
    if r.done then .next (s.setRun l (r.setStage k { r.stage k with busy := false })) else .next (s.completeStep l r k err)

/-- Whether an error falls on the step that a stage is in. -/
def Run.stepHolds (r : Run) (k : Nat) (e : ArrayErr) : Bool :=
  let d := r.desc k
  (stepWork d (d.tileGeo (r.stage k).tile) (r.stage k).step).2.any (fun w => w.g % 16384 == e.group.val)

/-- Runs an MMA's tile steps until it ends, stops or must wait; an error falls on the first step that holds its group. `fuel`
bounds the steps. -/
def State.runMma (s : State) (l id k : Nat) (fuel : Nat) (err : Option ArrayErr := none) : State :=
  match fuel with
  | 0 => s
  | fuel + 1 =>
    match s.runOf l id with
    | none => s
    | some r =>
      if !s.stageMay l r k then s
      else
        let s := if (r.stage k).busy then s else s.startStep l r k
        match s.runOf l id with
        | none => s
        | some r =>
          if !(r.stage k).busy then s
          else match err.filter (r.stepHolds k) with
            | some e => (s.completeStep l r k (some e)).runMma l id k fuel none
            | none => (s.completeStep l r k none).runMma l id k fuel err

/-- Tile steps of a whole MMA. -/
def mmaSteps (d : Desc) : Nat := (upTo (d.tm * d.tn)).foldl (fun a t => a + tileSteps d (d.tileGeo t)) 0

/-- MMA (R241): the running MMA of tag `tag` goes on as far as slots and Hatch permit. -/
def execMma (c : Fin 128) (tag : Fin 4096) (s : State) : Host.Outcome State Fault Refusal :=
  match (s.core c.val).run tag.val with
  | some r => if Desc.cls r.cmd.desc = 1 then .next (s.runMma c.val r.cmd.id 0 (mmaSteps r.cmd.desc)) else .next s
  | none => .next s

/-- A poisoned tile is filled again, and its handle pushed, once its slot is FREE (R143, R150). -/
def State.refillTile (s : State) (x : Redo) : State :=
  let i := s.under x.core
  let p := s.phy i
  if (p.slot x.at_).st ≠ .free ∨ (x.slot.pair && (p.slot (x.at_ + 1)).st != .free) then s
  else
    let p := (p.rebuild x.slot.parts).setSlot x.at_ { x.slot with st := if x.handle.isSome then .ready else .kept }
    let s := (s.setPhy i { p with hatch := p.hatch ++ x.handle.toList }).noteHigh i
    { s with sill := { s.sill with redo := s.sill.redo.filter (fun y => y != x) } }

/-- HATCH_ORPHAN (R243). -/
def execHatchOrphan (c : Fin 128) (s : State) : Host.Outcome State Fault Refusal :=
  let l := c.val
  let p := s.phy (s.under l)
  let vec := (s.core l).queue.any (fun x => x.engines.contains 1) || (s.core l).running.any (fun r => r.engines.contains 1)
  match (s.core l).running.find? (fun r => !r.done && Desc.cls r.cmd.desc == 1) with
  | some r =>
    if (p.mxAccWait || p.mxHatchWait) && !vec then
      .next ((s.dropHandles l r).finish l r.cmd.id 0x1C)
    else .next s
  | none => .next s

/-- A write to MXE_INJECT (R129): only on a physical core that holds no logical slot. -/
def State.writeInject (s : State) (i : Nat) (v : Word) : State :=
  if (s.logOf i).isNone then s.setReg (coreWin i + 0x1008) (v &&& 0x3FFFF) else s

/-- The error that MXE_INJECT asks for on physical core `i`, for group `group`, which is the next (R129): kinds 1 and 3 flip the
lowest bit of a window, kind 2 that of a column checksum. -/
def State.injected (s : State) (i group : Nat) : Option ArrayErr :=
  let a := coreWin i + 0x1008
  let e (k : ErrKind) : ArrayErr := {
    kind := k, row := ⟨s.fld a 2 8 % 256, Nat.mod_lt _ (by decide)⟩, col := ⟨s.fld a 10 8 % 256, Nat.mod_lt _ (by decide)⟩
    group := ⟨group % 16384, Nat.mod_lt _ (by decide)⟩, delta := 1 }
  match s.fld a 0 2 with
  | 0 => none
  | 2 => some (e .column)
  | _ => some (e .window)

/-- The injection has acted: KIND reads 0. -/
def State.injectDone (s : State) (i : Nat) : State := s.setFld (coreWin i + 0x1008) 0 2 0

/-- A self-test or a duplicate meets the injection of its core (R129): whether there was one. Its groups are not those of a command
whose windows the model has, so what is detected is recorded at group 0: the compares that a flipped bit fails. -/
def State.takeInject (s : State) (i : Nat) : Bool × State :=
  match s.injected i 0 with
  | none => (false, s)
  | some e => (true, (s.chkFailures i false e (if e.kind = .column then [2] else [0, 2, 3])).injectDone i)

/-- MXE_INJECT (R129). -/
def execMxeInject (r : Requester) (q : Fin 136) (v : Word) (s : State) : Host.Outcome State Fault Refusal :=
  if s.hears r then .next (s.writeInject q.val v) else .next s

end Sys2Proof.Machine
end

