-- ==== Sys2Proof/Machine/Convert.lean ====
section
/-!
DEFINITION. Machine/Convert.lean: runs of elements in memory: how they are read, widened by the load path (R76 to R78), and
narrowed by the store path (R79 to R84, R664, R665) with a rounding code, a scale and a seed; the loss scale (R91, R92).
-/
namespace Sys2Proof.Machine

/-- The rounding code that applies to a destination format (R61, R174): the command's where it is permitted, else RNE. -/
def rndFor (fmt rnd : Nat) : Nat := if rndOk rnd fmt then rnd else 0

/-- Element encodings 0 to n − 1 of a run of bytes. -/
def elemsOf (fmt n : Nat) (bs : List Byte) : List Nat :=
  let b := if fmt = 7 then 8 else elemBits fmt
  (upTo n).map (fun i =>
    if b = 4 then (bs.getD (i / 2) 0).toNat / 16 ^ (i % 2) % 16 else ofBytes ((bs.drop (i * (b / 8))).take (b / 8)))

/-- The values of a run, given its ZS8 bytes. -/
def valsOf (fmt : Nat) (zs : List Byte) (xs : List Nat) : List Val :=
  xs.zipIdx.map (fun x => elemVal fmt x.1 (zs.getD (x.2 / 32) 0).toNat)

/-- Whether an encoding of ZF16 is an infinity or a NaN (R92). -/
def zf16Special (fmt : Nat) (v : Val) : Bool := fmt == 2 && (v.isNan || v.isInf)

/-- What the load path makes of a run: encodings in the long format, flags, and whether it met what R92 counts. -/
structure Loaded where
  els : List Nat
  fl : Fl := 0
  ovf : Bool := false

/-- Widens a run to binary32 or, when `wide`, to binary64, times 2^k. Data already in the format is copied. -/
def loadRun (wide : Bool) (fmt : Nat) (k : Int) (zs : List Byte) (xs : List Nat) : Loaded :=
  let same := fmt == (if wide then 1 else 0) && k == 0
  if same then { els := xs }
  else
    let vs := valsOf fmt zs xs
    let rs := vs.map (fun v => packLong (longFmtOf wide) 0 (v.scale k))
    let fl := rs.foldl (fun f r => f ||| r.2) (0 : Fl)
    { els := rs.map (·.1), fl := fl, ovf := vs.any (zf16Special fmt) || fl &&& fOverflow != 0 }
where
  longFmtOf (w : Bool) : FmtP := if w then pB64 else pB32

/-- How the store path narrows: format, rounding code, SAT, seed, exponent of the per-tensor scale, and, for ZI8, the
channel scale. -/
structure StoreHow where
  fmt : Nat
  rnd : Nat
  sat : Bool
  seed : Nat
  k : Int := 0
  chan : Val := .nan false

/-- What the store path makes of a run: encodings, ZS8 bytes, flags, largest finite source magnitude as binary32,
saturated elements, and whether it met what R92 counts. -/
structure Narrowed where
  els : List Nat := []
  zs : List Nat := []
  fl : Fl := 0
  mag : Nat := 0
  sats : Nat := 0
  ovf : Bool := false

/-- Splits a list into blocks of `n`. `fuel` bounds their number. -/
def blocks {α : Type} (n : Nat) : Nat → List α → List (List α)
  | 0, _ => []
  | _, [] => []
  | fuel + 1, l => l.take n :: blocks n fuel (l.drop n)

/-- Whether a narrowed element is one that saturated (R80, R87): it overflowed and is finite. -/
def satAt (fmt : Nat) (r : Nat × Fl) : Bool := r.2 &&& fOverflow != 0 && !(elemVal fmt r.1 0).isInf

/-- Narrows a run of values whose element i has linear index `idx` + i. The source magnitude that R87 folds is that of
`vs`: before the per-tensor scale and, for every store path, after the loss scale is removed (DESIGN CHOICE,
notes/assumptions/59.md). -/
def narrowRun (h : StoreHow) (idx : Nat) (vs : List Val) : Narrowed :=
  let rnd := rndFor h.fmt h.rnd
  let (m, q) := maxMag vs
  let mag := foldMag m q
  let sv := vs.map (Val.scale · h.k)
  if h.fmt = 5 then
    let bs := (blocks 32 (vs.length + 1) sv).zipIdx.map (fun b => packZf4Block rnd h.seed (idx + 32 * b.2) b.1)
    let fl := bs.foldl (fun f b => f ||| b.fl) (0 : Fl)
    { els := bs.flatMap (·.nibs), zs := bs.map (·.byte), fl := fl, mag := mag, sats := (bs.map (·.sats)).sum
      ovf := fl &&& fOverflow != 0 }
  else
    let one (p : Val × Nat) : Nat × Fl :=
      if h.fmt = 6 then packZi8 rnd h.seed (idx + p.2) h.chan p.1 else packTo h.fmt rnd h.sat h.seed (idx + p.2) p.1
    let rs := sv.zipIdx.map one
    let fl := rs.foldl (fun f r => f ||| r.2) (0 : Fl)
    { els := rs.map (·.1), fl := fl, mag := mag
      sats := (rs.filter (satAt h.fmt)).length
      ovf := fl &&& fOverflow != 0 || (h.fmt == 2 && rs.any (fun r => zf16Special 2 (elemVal 2 r.1 0))) }

/-- The bytes of a run of encodings: two ZF4 elements share a byte, and a last lone one keeps the other nibble of the
byte `old` that stands there (R70, R665). -/
def runBytes (fmt : Nat) (old : Byte) (els : List Nat) : List Byte :=
  let b := if fmt = 7 then 8 else elemBits fmt
  if b = 4 then
    (blocks 2 (els.length + 1) els).map (fun p =>
      let hi := match p with
        | [_, y] => y
        | _ => old.toNat / 16
      BitVec.ofNat 8 (p.headD 0 % 16 + 16 * (hi % 16)))
  else els.flatMap (fun x => toBytes (b / 8) x)

/-- The loss-scale record of a partition (R91). -/
def lossRec (p : Nat) : Nat := 0xF000080000 + 0x20 * p

/-- Exponent that a command applies in its load path and removes in its store path (R92). DESIGN CHOICE
(notes/assumptions/59.md): with ENABLE 0 EXP counts as 0, and STEP_OVF is not set. -/
def State.lossExp (s : State) (p : Nat) : Int :=
  if s.rec_ (lossRec p) 8 1 = 1 then signed 8 (s.rec_ (lossRec p) 0 8) else 0

/-- Whether a descriptor applies or removes the loss scale (R92). -/
def Desc.lsUses (d : Desc) : Bool := d.lsApply || d.lsRemove

/-- STEP_OVF is set by a command that applies or removes the loss scale, on whichever path it meets what R92 lists. -/
def State.stepOvf (s : State) (p : Nat) (uses ovf : Bool) : State :=
  if uses && ovf && s.rec_ (lossRec p) 8 1 == 1 then s.setRec (lossRec p + 0x10) 0 1 1 else s

/-- Bytes of a core's scratchpad (R369). -/
def Phys.spdBytes (p : Phys) (a n : Nat) : List Byte := (upTo n).map (fun i => p.spdByte (a + i))

def Phys.spdPut (p : Phys) (a : Nat) (bs : List Byte) : Phys :=
  { p with spd := bs.zipIdx.foldl (fun t b => if b.1 = 0 ∧ p.free.isNone then t.drop (a + b.2) else t.put (a + b.2) b.1) p.spd }

/-- The running command raises flags of a set: 0 matrix, 1 vector, 2 transfer. -/
def Run.flag (r : Run) (set : Nat) (f : Fl) : Run := if f = 0 then r else { r with sets := r.sets ++ [(set, f)] }

/-- The flags that a command raised since it stood as `r₀`, and with them whether it raised overflow (R92). -/
def Run.newFlags (r₀ r : Run) : Fl := (r.sets.drop r₀.sets.length).foldl (fun f x => f ||| x.2) 0

/-- STEP_OVF for what stage `k` of a command raised on its way from `r₀` to `r` (R92). -/
def State.raisedOvf (s : State) (r₀ r : Run) (k : Nat) : State :=
  s.stepOvf r.cmd.part (r.desc k).lsUses (r₀.newFlags r &&& fOverflow != 0)

/-- A narrowed run joins what the command folds into the scale slot of stage `k` (R87). -/
def Run.folded (r : Run) (k : Nat) (x : Narrowed) : Run :=
  match r.folds.find? k with
  | some f => { r with folds := r.folds.put k { f with mag := max f.mag x.mag, sats := f.sats + x.sats, any := true } }
  | none => r

/-- The signed exponent of the scale slot that stage `k` stores with, as read at its start (R86). -/
def Run.slotExp (r : Run) (k : Nat) : Int :=
  match r.folds.find? k with
  | some f => signed 8 f.exp
  | none => 0

end Sys2Proof.Machine
end

