-- ==== Sys2Proof/Machine/VecOps.lean ====
section
/-!
DEFINITION. Machine/VecOps.lean: the vector engine's instruction word (R172, R173), its checks (R191), the arithmetic of
each operation (R174, R180 to R186), and the fixed reduction tree and top-eight records (R152, R153, R158, R159).
-/
namespace Sys2Proof.Machine

/-! ### The fixed reduction tree (R152, R153) -/

/-- One level of the tree: neighbours combine, and a last child without a partner passes up unchanged. -/
def treeLevel {α : Type} (f : α → α → α) : List α → List α
  | a :: b :: r => f a b :: treeLevel f r
  | l => l

/-- The tree over a list of contributors; `fuel` bounds its levels. -/
def treeFold {α : Type} (f : α → α → α) : Nat → List α → Option α
  | _, [] => none
  | 0, a :: _ => some a
  | n + 1, l => if l.length = 1 then l.head? else treeFold f n (treeLevel f l)

/-- add_node (R153) in a long format: both children exact, one rounding to nearest. -/
def addNode (f : FmtP) (x y : Nat) : Nat × Fl :=
  let one : Val := .fin false 1 0
  let g := ([(decodeIeee f x, one), (decodeIeee f y, one)]).foldl (fun g p => GroupAcc.product (accLim f) g p.1 p.2) {}
  match g.special f with
  | some r => r
  | none => g.round f 0

/-- add_node on ZI8 integers (R153, R113). -/
def addNodeInt (x y : Nat) : Nat × Fl :=
  let r := foldInt (signed 32 x) [(signed 32 y, 1)]
  (unsigned 32 r.1, r.2)

/-- Max (1), min (2) or largest magnitude (3) of two children (R180, R248): a NaN gives the canonical NaN. -/
def pickNode (op : Nat) (f : FmtP) (x y : Nat) : Nat × Fl :=
  let a := decodeIeee f x
  let b := decodeIeee f y
  let a := if op = 3 then a.abs else a
  let b := if op = 3 then b.abs else b
  let fl := flagIf (a.isSnan || b.isSnan) fInvalid
  if a.isNan || b.isNan then ((packLong f 0 (.nan false)).1, fl)
  else
    let less := a.cmp b == .lt || (a.isZero && b.isZero && a.sign && !b.sign)
    let v := if op = 2 then (if less then a else b) else (if less then b else a)
    ((packLong f 0 v).1, fl)

/-- The node rule of an operation code of RED and VRED: 0 sum, 1 max, 2 min, 3 largest magnitude. -/
def nodeOp (op : Nat) (f : FmtP) (x y : Nat × Fl) : Nat × Fl :=
  let r := if op = 0 then addNode f x.1 y.1 else pickNode op f x.1 y.1
  (r.1, x.2 ||| y.2 ||| r.2)

/-- A leaf: for the picks a lone NaN is canonical and largest magnitude clears the sign. -/
def leafOp (op : Nat) (f : FmtP) (x : Nat) : Nat × Fl := if op = 0 then (x, 0) else pickNode op f x x

/-- The reduction of a list of encodings along the fixed tree. -/
def treeReduce (op : Nat) (f : FmtP) (xs : List Nat) : Nat × Fl :=
  (treeFold (nodeOp op f) 64 (xs.map (leafOp op f))).getD (0, 0)

/-! ### Top-eight records (R158, R159) -/

/-- An entry: VALUE and POS. -/
abbrev Top := Nat × Nat

def emptyPos : Nat := 0xFFFFFFFFFFFFFFFF

def canonNan (wide : Bool) : Nat := if wide then nanB64 else nanB32

def longFmt (wide : Bool) : FmtP := if wide then pB64 else pB32

/-- Whether entry `x` ranks before `y` (R159). -/
def topBefore (wide : Bool) (x y : Top) : Bool :=
  let f := longFmt wide
  let ex := x.2 == emptyPos && x.1 == canonNan wide
  let ey := y.2 == emptyPos && y.1 == canonNan wide
  if ex || ey then !ex && ey
  else
    let a := decodeIeee f x.1
    let b := decodeIeee f y.1
    if a.isNan != b.isNan then b.isNan
    else if a.isNan then decide (x.2 < y.2)
    else match a.cmp b with
      | .gt => true
      | .lt => false
      | .eq => decide (x.2 < y.2)

/-- Inserts an entry behind those that rank before it or equal. -/
def topInsert (wide : Bool) (x : Top) : List Top → List Top
  | [] => [x]
  | y :: r => if topBefore wide x y then x :: y :: r else y :: topInsert wide x r

/-- The first eight of two records (R159). -/
def topMerge (wide : Bool) (a b : List Top) : List Top := ((a ++ b).foldl (fun l x => topInsert wide x l) []).take 8

/-- The record of a list of elements with their positions, and the flags: a signalling NaN raises invalid (R159). -/
def topOf (wide : Bool) (xs : List Top) : List Top × Fl :=
  let f := longFmt wide
  let canon (x : Top) : Top := if (decodeIeee f x.1).isNan then (canonNan wide, x.2) else x
  let es := (xs.map canon).foldl (fun l x => (topInsert wide x l).take 8) []
  (es ++ List.replicate (8 - es.length) (canonNan wide, emptyPos), flagIf (xs.any (fun x => (decodeIeee f x.1).isSnan)) fInvalid)

/-- The 32 words of a record. -/
def topWords (es : List Top) : List Nat :=
  es.flatMap (fun x => [x.1 % 2 ^ 32, x.1 / 2 ^ 32, x.2 % 2 ^ 32, x.2 / 2 ^ 32])

/-! ### The exponent unit (R181, R182) -/

/-- Bits of fraction in which 2^f is formed; enough that the rounding of every binary32 y is decided. -/
def expBits : Nat := 256

/-- Product of 2^(2^−i) over the set bits of the fraction f = n / 2^w, with `c` = 2^(2^−i) for the bit in hand. -/
def expLoop (n : Nat) : Nat → Nat → Nat → Nat
  | 0, _, acc => acc
  | b + 1, c, acc =>
    let c' := isqrt (c * 2 ^ expBits)
    expLoop n b c' (if n.testBit b then acc * c' / 2 ^ expBits else acc)

/-- 2^y for a finite y (R182): the encoding and the flags. -/
def exp2Fin (neg : Bool) (m : Nat) (q : Int) : Nat × Fl :=
  let w : Nat := (-q).toNat
  let n : Int := if neg then -((m * pow2 q : Nat) : Int) else (m * pow2 q : Nat)
  -- y = n / 2^w
  let whole := n / (2 : Int) ^ w
  let frac := (n % (2 : Int) ^ w).toNat
  if whole ≥ 128 then ((packLong pB32 0 (.inf false)).1, fOverflow ||| fInexact)
  else if whole < -150 ∨ (whole = -150 ∧ frac = 0) then (0, fUnderflow ||| fInexact)
  else if frac = 0 then ((roundIeee pB32 0 false 1 whole).1, 0)
  else
    let p := expLoop frac w (2 * 2 ^ expBits) (2 ^ expBits)
    ((roundIeee pB32 0 false (2 * p + 1) (whole - expBits - 1)).1, fInexact ||| flagIf (decide (whole < -126)) fUnderflow)

/-- 2^y (R182). -/
def exp2 : Val → Nat × Fl
  | .nan _ => (nanB32, 0)
  | .inf n => (if n then 0 else (packLong pB32 0 (.inf false)).1, 0)
  | .fin n m q => if m = 0 then (0x3F800000, 0) else exp2Fin n m q

/-! ### The instruction word (R172) -/

structure VIns where
  op : Nat
  vd : Nat
  va : Nat
  vb : Nat
  vc : Nat
  bb : Nat
  bc : Nat
  w : Bool
  imm : Nat
  deriving DecidableEq, Repr

def vIns (x : Nat) : VIns :=
  { op := x % 128, vd := x / 2 ^ 7 % 32, va := x / 2 ^ 12 % 32, vb := x / 2 ^ 17 % 32, vc := x / 2 ^ 22 % 32
    bb := x / 2 ^ 27 % 4, bc := x / 2 ^ 29 % 4, w := x / 2 ^ 31 % 2 == 1, imm := x / 2 ^ 17 % 1024 }

/-- Class of an operation (R173): 0 none, 1 L, 2 H, 3 E, 4 R, 5 P, 6 M; `none` for a reserved code. -/
def vClass (op : Nat) : Option Nat :=
  if op < 4 then some 0
  else if (8 ≤ op ∧ op ≤ 0x15) then some 1
  else if 0x18 ≤ op ∧ op ≤ 0x1B then some 2
  else if op = 0x20 then some 3
  else if 0x28 ≤ op ∧ op ≤ 0x2A then some 4
  else if 0x30 ≤ op ∧ op ≤ 0x33 then some 5
  else if 0x38 ≤ op ∧ op ≤ 0x3B then some 6
  else none

/-- Fields that an operation uses: VD, VA, VB, VC as a third source, and the values of SUB that it defines. -/
structure VUse where
  vd : Bool := false
  va : Bool := false
  vb : Bool := false
  vc : Bool := false
  sub : Nat → Bool := fun n => n == 0
  w : Bool := true

def vUse (op : Nat) (stream : Bool) : VUse :=
  if op = 0x0D ∨ op = 0x0E ∨ op = 0x1A ∨ op = 0x1B ∨ op = 0x29 ∨ op = 0x31 then { vd := true, va := true }
  else if op = 0x10 then { vd := true, va := true, vb := true, sub := fun n => decide (n < 4) }
  else if op = 0x11 ∨ op = 0x18 then { vd := true, va := true, vb := true, vc := true }
  else if op = 0x12 then { vd := true, va := true, sub := fun n => decide (n < 4), w := false }
  else if op = 0x20 then { vd := true, va := true, vb := true, vc := true, w := false }
  else if op = 0x28 then { vd := true, va := true, sub := fun n => decide (n < 4) || (stream && decide (16 ≤ n ∧ n < 20)) }
  else if op = 0x2A then { vd := true, va := true, sub := fun n => decide (n < 6) }
  else if op = 0x30 then { vd := true, va := true, vb := true, sub := fun n => decide (n < 2) }
  else if op = 0x39 then { vd := true, w := false }
  else if op = 0x3A then { vd := true, vb := true, sub := fun n => decide (n < 7) }
  else if op = 0x3B then { va := true, vb := true, sub := fun n => decide (n < 7) }
  else { vd := true, va := true, vb := true }

/-- The field checks of R172 and R191 on one instruction. -/
def vFieldOk (i : VIns) (stream : Bool) : Bool :=
  match vClass i.op with
  | none => false
  | some _ =>
    if i.op < 2 then i.vd == 0 && i.va == 0 && i.imm == 0 && i.bb == 0 && i.bc == 0 && !i.w
    else if i.op = 2 then i.vd == 0 && i.va == 0 && i.bb == 0 && i.bc == 0 && !i.w
    else if i.op = 3 then stream && i.vd == 0 && i.va == 0 && i.imm == 0 && i.bb == 0 && i.bc == 0 && !i.w
    else if i.op = 0x38 then i.va == 0 && decide (i.imm < 256) && i.bb == 0 && i.bc == 0 && !i.w
    else
      let u := vUse i.op stream
      (u.vd || i.vd == 0) && (u.va || i.va == 0 || stream) && (u.vb || (i.vb == 0 && i.bb == 0))
        && (u.vc || (u.sub i.vc && i.bc == 0)) && (u.w || !i.w) && (i.op != 0x2A || decide (i.vd < 4))

/-- Largest VL of an operation (R169, R174). -/
def vlMax (i : VIns) : Nat := if i.w || (i.op == 0x12 && decide (i.vc ≥ 2)) then 256 else 512

/-! ### Registers (R167) -/

/-- Word `i` of the vector registers; an open value where a pre-emption left no defined contents (R501). -/
def Phys.vword (p : Phys) (i : Nat) : Word :=
  p.vregs.get (match p.free with
    | none => 0
    | some n => Config.freeValue 32 (n + 2 ^ 24 + i)) i

/-- Element `e` of register `r`, 32 or 64 bits wide. -/
def Phys.el (p : Phys) (wide : Bool) (r e : Nat) : Nat :=
  if wide then (p.vword (512 * r + 2 * e)).toNat + 2 ^ 32 * (p.vword (512 * r + 2 * e + 1)).toNat
  else (p.vword (512 * r + e)).toNat

def Phys.putEl (p : Phys) (wide : Bool) (r e v : Nat) : Phys :=
  if wide then
    { p with vregs := (p.vregs.put (512 * r + 2 * e) (BitVec.ofNat 32 v)).put (512 * r + 2 * e + 1) (BitVec.ofNat 32 (v / 2 ^ 32)) }
  else { p with vregs := p.vregs.put (512 * r + e) (BitVec.ofNat 32 v) }

/-- Row tag of a register (R176). -/
def Phys.rowTag (p : Phys) (r : Nat) : Nat := (p.tags.get { row := 0, tile := 0 } r).row

def Phys.setTag (p : Phys) (r t : Nat) : Phys := { p with tags := p.tags.put r { row := t, tile := 0 } }

/-- Writes elements from 0 on; any such write sets the row tag to 0 (R176). -/
def Phys.putEls (p : Phys) (wide : Bool) (r : Nat) (vs : List Nat) : Phys :=
  ((vs.zipIdx.foldl (fun p x => p.putEl wide r x.2 x.1) p).setTag r 0).wrote .vec (2048 * r) ((if wide then 8 else 4) * vs.length)

/-- The element of a broadcast source that meets element `e` in register mode (R179); `t` is VA's row tag. -/
def Phys.bcast (p : Phys) (wide : Bool) (kind r t e : Nat) : Nat :=
  match kind with
  | 0 => p.el wide r e
  | 1 => if wide then p.el wide r e else p.el wide r (e % 256)
  | 2 => if wide then p.el wide r (t % 256) else p.el wide r ((t + e / 256) % 512)
  | _ => p.el wide r 0

/-! ### Element-wise operations -/

/-- A signed integer of a binary32 value (VCVT SUB 0, R174). -/
def toInt32 (rnd : Nat) : Val → Nat × Fl
  | .nan _ => (0, fInvalid)
  | .inf n => (if n then 0x80000000 else 0x7FFFFFFF, fInvalid)
  | .fin n m q =>
    if m = 0 then (0, 0)
    else if leadExp m q > 40 then (if n then 0x80000000 else 0x7FFFFFFF, fInvalid)
    else
      let (k, ix) := cutAt rnd n m q 0 0 0
      let i : Int := if n then -(k : Int) else k
      if i > 2 ^ 31 - 1 then (0x7FFFFFFF, fInvalid)
      else if i < -2 ^ 31 then (0x80000000, fInvalid)
      else (unsigned 32 i, flagIf ix fInexact)

/-- The comparisons of VCMP (R173): equal and unordered are quiet, less and less or equal are signalling. -/
def vCompare (sub : Nat) (a b : Val) : Bool × Fl :=
  let nan := a.isNan || b.isNan
  let sn := flagIf (a.isSnan || b.isSnan) fInvalid
  match sub with
  | 0 => (!nan && a.cmp b == .eq, sn)
  | 1 => (!nan && a.cmp b == .lt, flagIf nan fInvalid)
  | 2 => (!nan && a.cmp b != .gt, flagIf nan fInvalid)
  | _ => (nan, sn)

/-- One element of an operation of class L, H or E other than a width-changing VCVT (R173, R174, R181). -/
def vElem (i : VIns) (rnd : Nat) (a b c : Nat) : Nat × Fl :=
  let f := longFmt i.w
  let bits := if i.w then 64 else 32
  let va := decodeIeee f a
  let vb := decodeIeee f b
  let vc := decodeIeee f c
  match i.op with
  | 0x08 => addLong f rnd va vb
  | 0x09 => addLong f rnd va vb.neg
  | 0x0A => mulLong f rnd va vb
  | 0x0B => pickNode 1 f a b
  | 0x0C => pickNode 2 f a b
  | 0x0D => (a % 2 ^ (bits - 1), 0)
  | 0x0E => ((a + 2 ^ (bits - 1)) % 2 ^ bits, 0)
  | 0x0F => packLong f rnd (va.scale (signed 32 b))
  | 0x10 =>
    let (t, fl) := vCompare i.vc va vb
    (if t then 2 ^ bits - 1 else 0, fl)
  | 0x11 => (if c ≠ 0 then a else b, 0)
  | 0x12 => if i.vc = 0 then toInt32 rnd va else packLong pB32 rnd (intVal (signed 32 a))
  | 0x13 => (a &&& b, 0)
  | 0x14 => (a ||| b, 0)
  | 0x15 => (a ^^^ b, 0)
  | 0x18 => fmaLong f rnd va vb vc
  | 0x19 => divLong f rnd va vb
  | 0x1A => sqrtLong f rnd va
  | 0x1B => rsqLong f rnd va
  | _ =>
    let (y, fl) := fmaLong pB32 0 va vb vc.neg
    let (x, fl') := exp2 (vB32 y)
    (x, fl ||| fl')

/-- Width of an operation's source and of its result. -/
def vWidths (i : VIns) : Bool × Bool :=
  if i.op = 0x12 then (i.vc == 3, i.vc == 2) else (i.w, i.w)

/-- An element of any L, H or E operation: VCVT SUB 2 widens and SUB 3 narrows (R174). -/
def vElemAny (i : VIns) (rnd : Nat) (a b c : Nat) : Nat × Fl :=
  if i.op = 0x12 ∧ i.vc = 2 then packLong pB64 rnd (vB32 a)
  else if i.op = 0x12 ∧ i.vc = 3 then packLong pB32 rnd (vB64 a)
  else vElem i rnd a b c

/-! ### Summaries (R186) -/

/-- The summary of a list of encodings, with the flags it raises. -/
def summaryOf (kind : Nat) (wide : Bool) (xs : List Nat) : Dword × Fl :=
  let f := longFmt wide
  let vs := xs.map (decodeIeee f)
  let anyNan := vs.any Val.isNan
  let anyInf := vs.any Val.isInf
  let idx (p : Val → Bool) : Option Nat := vs.findIdx? p
  let to32 (x : Nat) : Nat := if wide then (packLong pB32 0 (vB64 x)).1 else x
  let none16 := 0xFFFF
  let (value, index, fl) : Nat × Nat × Fl :=
    match kind with
    | 0 =>
      let r := treeReduce 0 f xs
      if anyNan then (nanB32, (idx Val.isNan).getD none16, r.2) else (to32 r.1, none16, r.2)
    | 3 => ((vs.filter (fun v => !v.isZero)).length, none16, 0)
    | 4 => match idx (fun v => !v.isZero) with
      | some n => (n, n % 2 ^ 16, 0)
      | none => (0xFFFFFFFF, none16, 0)
    | 5 => (0, (idx (fun v => v.isNan || v.isInf)).getD none16, 0)
    | k =>
      let fl := flagIf (vs.any Val.isSnan) fInvalid
      if anyNan then (nanB32, (idx Val.isNan).getD none16, fl)
      else
        let best := treeReduce k f xs
        let b := decodeIeee f best.1
        (to32 best.1, (idx (fun v => v.cmp b == .eq && v.sign == b.sign)).getD none16, fl)
  (BitVec.ofNat 64 (value % 2 ^ 32 + index % 2 ^ 16 * 2 ^ 32 + b2n anyNan * 2 ^ 48 + b2n anyInf * 2 ^ 49 + 2 ^ 50 + kind * 2 ^ 52), fl)

end Sys2Proof.Machine
end

