-- ==== Sys2Proof/Machine/Vector.lean ====
section
/-!
DEFINITION. Machine/Vector.lean: the vector engine (R166 to R197): the instructions of register mode, the passes of stream
mode, the source and the sink, and the run of a VOP (R244 to R246).
-/
namespace Sys2Proof.Machine

/-! ### Handles and the current tile (R144, R145, R176) -/

def hSlot (h : BitVec 64) : Nat := bits h 0 3
def hWide (h : BitVec 64) : Bool := bit h 3
def hRows (h : BitVec 64) : Nat := bits h 6 8 + 1
def hCols (h : BitVec 64) : Nat := bits h 14 8 + 1
def hLast (h : BitVec 64) : Bool := bit h 22
def hTile (h : BitVec 64) : Nat := bits h 24 16

/-- A POISONED tile is popped, nothing is drained from it, and its slot is FREE (R151): `hs` are the handles of the Hatch. As its
chain is replayed and pushes it again (R150), the command goes on with the next handle. -/
def Phys.popPoisoned (p : Phys) : List (BitVec 64) → Phys
  | [] => { p with hatch := [] }
  | h :: r => if (p.slot (hSlot h)).st = .poisoned then (p.freeSlot (hSlot h)).popPoisoned r else { p with hatch := h :: r }

/-- Takes the oldest handle: its tile is current and DRAINING (R138, R176). -/
def Phys.popHandle (p : Phys) : Option (BitVec 64 × Phys) :=
  match p.hatch with
  | [] => none
  | h :: r =>
    let x := p.slot (hSlot h)
    some (h, { p.setSlot (hSlot h) { x with st := .draining } with hatch := r, cur := some h, hatchWait := false })

/-! ### How a vector command begins and ends -/

/-- A vector command, or a round of a VOP stage, begins: VL, the mode and the thread (R169, R193); there is no current tile, but for
one that a replay kept (R176). -/
def State.vecBegin (s : State) (l : Nat) (r : Run) (k : Nat) : State :=
  if (r.stage k).started then s
  else
    let d := r.desc k
    let i := s.under l
    let p := if r.again then s.phy i else (s.phy i).retireTile
    let stream := d.f 0x16 0 1 == 1
    let s := s.setPhy i { p with
      vpc := 0, pass := false, stream := stream, vthread := ctxThread r.cmd.ctx, hatchWait := false, sinkWait := false,
      vstFirst := none, vl := if stream then p.vl else d.f 0x14 0 10 + 1 }
    s.setRun l (r.setStage k { r.stage k with started := true })

/-- A vector command stops with a status (R176, R188, R191): the current tile retires and no summary is posted as valid. -/
def State.vecStop (s : State) (l : Nat) (r : Run) (code : Nat) : State :=
  let i := s.under l
  let p := s.phy i
  ((s.setPhy i { p.retireTile with hatchWait := false, sinkWait := false }).setRun l { r with sums := [] }).finish l r.cmd.id code

/-- A vector command whose storage read is uncorrectable stops for a replay (R190, R372). It keeps its current tile DRAINING; one that
is itself poisoned is given up, as its chain fills it again (R150, R176). -/
def State.vecReplay (s : State) (l : Nat) (r : Run) : State :=
  let i := s.under l
  let p := s.phy i
  let lost : Bool := match p.cur with
    | some h => (p.slot (hSlot h)).st == .poisoned
    | none => false
  (s.setPhy i { (if lost then p.retireTile else p) with hatchWait := false, sinkWait := false }).askReplay l r.cmd.id

/-- VEND, or the end of a stream program's source: the current tile retires and the round ends (R176). -/
def State.vecEnd (s : State) (l : Nat) (r : Run) (k : Nat) : State :=
  let i := s.under l
  (s.setPhy i { (s.phy i).retireTile with hatchWait := false }).setRun l (r.endRound k)

/-! ### Scratchpad loads and stores of register mode -/

/-- The `n` bytes from scratchpad address `a`; bytes beyond the scratchpad are open values. -/
def State.spdLoad (s : State) (i a n : Nat) : List Byte :=
  (upTo n).map (fun j => if a + j < spdSize then (s.phy i).spdByte (a + j) else Config.freeValue 8 (s.drawn + j))

/-- Counts the open values of such a load. -/
def State.spdDrew (s : State) (a n : Nat) : State := if a + n ≤ spdSize then s else { s with drawn := s.drawn + n }

/-- Stores bytes from scratchpad address `a`; what lies beyond the scratchpad is not stored. -/
def State.spdStore (s : State) (i a : Nat) (bs : List Byte) : State :=
  let s := s.eccWrite i .spd a (min bs.length (spdSize - a))
  s.setPhy i ((s.phy i).spdPut a (bs.take (spdSize - a)))

/-- Address of the ZS8 bytes of a ZF4 run of `n` elements at `a` (R664). -/
def zsAfter (a n : Nat) : Nat := a + 16 * ceilDiv n 32

/-- VLD (R173, R174, R664). A binary64 run loaded as binary32 has no widening: its elements are open values. -/
def State.vldStep (s : State) (l : Nat) (r : Run) (k : Nat) (v : VIns) : State × Run :=
  let i := s.under l
  let p := s.phy i
  let d := r.desc k
  let n := p.vl
  let a := p.el false v.vb 0
  let nb := fmtBytes v.vc n
  let bs := s.spdLoad i a nb
  let s := s.spdDrew a nb
  let zb := if v.vc = 5 then s.spdLoad i (zsAfter a n) (ceilDiv n 32) else []
  let s := if v.vc = 5 then s.spdDrew (zsAfter a n) (ceilDiv n 32) else s
  let kk := if d.lsApply then s.lossExp r.cmd.part else 0
  if v.vc = 1 ∧ !v.w then
    let vs := (upTo n).map (fun e => (Config.freeValue 32 (s.drawn + e)).toNat)
    (({ s with drawn := s.drawn + n }).setPhy i ((s.phy i).putEls false v.vd vs), r)
  else
    let x := loadRun v.w v.vc kk zb (elemsOf v.vc n bs)
    let s := s.stepOvf r.cmd.part d.lsUses x.ovf
    (s.setPhy i ((s.phy i).putEls v.w v.vd x.els), r.flag 2 x.fl)

/-- How a stage narrows: the slot's scale only where the formats agree (R174). -/
def Run.storeHow (r : Run) (k fmt : Nat) (chan : Val) : StoreHow :=
  let d := r.desc k
  let live := match r.folds.find? k with
    | some f => f.fmt == fmt
    | none => false
  { fmt := fmt, rnd := d.rnd, sat := d.sat, seed := d.seed, k := if live then r.slotExp k else 0, chan := chan }

/-- Narrows a run for stage `k`: data already in the format, with no scale, is copied. -/
def State.storeRun (s : State) (r : Run) (k fmt : Nat) (wide : Bool) (chan : Val) (idx : Nat) (xs : List Nat) : Narrowed :=
  let d := r.desc k
  let h := r.storeHow k fmt chan
  let ls := if d.lsRemove then s.lossExp r.cmd.part else 0
  if fmt = (if wide then 1 else 0) ∧ ls = 0 then { els := xs }
  else narrowRun h idx (xs.map (fun x => (decodeIeee (longFmt wide) x).scale (-ls)))

/-- VST (R173, R174, R664, R665). The spec gives a VST to ZI8 no channel scale: it is an open value. -/
def State.vstStep (s : State) (l : Nat) (r : Run) (k : Nat) (v : VIns) : State × Run :=
  let i := s.under l
  let p := s.phy i
  let d := r.desc k
  let n := p.vl
  let a := p.el false v.vb 0
  let first := p.vstFirst.getD a
  let idx := unsigned 64 (((a : Int) - first) * 8 / elemBits v.vc)
  let chan := vB32 (s.draw 32).toNat
  let s := if v.vc = 6 then s.drew else s
  let x := s.storeRun r k v.vc v.w chan idx ((upTo n).map (fun e => p.el v.w v.va e))
  let old := p.spdByte (a + (n - 1) / 2)
  let s := s.setPhy i { p with vstFirst := some first }
  let s := s.spdStore i a (runBytes v.vc old x.els)
  let s := if v.vc = 5 then s.spdStore i (zsAfter a n) (x.zs.map (BitVec.ofNat 8)) else s
  let s := s.stepOvf r.cmd.part d.lsUses x.ovf
  let r := r.flag 2 x.fl
  (s, if (r.storeHow k v.vc chan).k = 0 ∧ ((r.folds.find? k).map (·.fmt)) ≠ some v.vc then r else r.folded k x)

/-! ### One instruction of register mode -/

/-- Source elements 0 to VL − 1 of the operands of an element-wise operation. -/
def Phys.operands (p : Phys) (v : VIns) (e : Nat) : Nat × Nat × Nat :=
  let w := (vWidths v).1
  let t := p.rowTag v.va
  let u := vUse v.op false
  (p.el w v.va e, if u.vb then p.bcast w v.bb v.vb t e else 0, if u.vc then p.bcast w v.bc v.vc t e else 0)

/-- Class L, H or E in register mode (R173, R174, R181). -/
def Phys.elementwise (p : Phys) (v : VIns) (rnd : Nat) : Phys × Fl :=
  let rs := (upTo p.vl).map (fun e =>
    let (a, b, c) := p.operands v e
    vElemAny v rnd a b c)
  (p.putEls (vWidths v).2 v.vd (rs.map (·.1)), rs.foldl (fun f x => f ||| x.2) 0)

/-- The permutations (R184, R185): the core, and how many elements VPERM set to +0. -/
def Phys.permute (p : Phys) (v : VIns) : Phys × Nat :=
  let n := p.vl
  let a (e : Nat) : Nat := p.el v.w v.va e
  let t := p.rowTag v.va
  match v.op with
  | 0x30 =>
    let ks := (upTo n).map (fun e => p.bcast v.w v.bb v.vb t e % 2 ^ 32)
    let vs := ks.map (fun k => if k < n then a k else if v.vc = 1 then a (k % n) else 0)
    (p.putEls v.w v.vd vs, if v.vc = 1 then 0 else (ks.filter (fun k => decide (k ≥ n))).length)
  | 0x31 => (p.putEls v.w v.vd ((upTo n).map (fun e => a (n - 1 - e))), 0)
  | 0x32 =>
    let m := p.el false v.vb 0
    (p.putEls v.w v.vd ((upTo n).map (fun e => a ((e + m) % n))), 0)
  | _ =>
    let b (e : Nat) : Nat := p.bcast v.w v.bb v.vb t e
    (p.putEls v.w v.vd ((upTo (n / 2)).flatMap (fun e => [a e, b e])), 0)

/-- VDRN (R176): tile row pair, or tile row, `r` of the current tile. -/
def Phys.drainRow (p : Phys) (h : BitVec 64) (vd r : Nat) : Phys :=
  let get (row c : Nat) : Nat := if row < hRows h ∧ c < hCols h then p.accGet (hWide h) (hSlot h) row c else 0
  if hWide h then (p.putEls true vd ((upTo 256).map (get r))).setTag vd r
  else (p.putEls false vd ((upTo 512).map (fun e => get (2 * r + e / 256) (e % 256)))).setTag vd (2 * r)

/-- The longest VL that an instruction that touches VL elements permits; `none` where it touches no VL. -/
def vlLimit (v : VIns) : Option Nat :=
  if v.op < 4 ∨ v.op = 0x38 ∨ v.op = 0x39 then none else some (vlMax v)

/-- Carries out a checked instruction (R173): `none` when it waits for a handle. -/
def State.vecDo (s : State) (l : Nat) (r : Run) (k : Nat) (v : VIns) : Option (State × Run) :=
  let i := s.under l
  let p := s.phy i
  let d := r.desc k
  let rnd := rndFor 0 d.rnd
  let els := (upTo p.vl).map (fun e => p.el v.w v.va e)
  match vClass v.op with
  | some 0 => some (if v.op = 2 then s.setPhy i { p with vl := v.imm + 1 } else s, r)
  | some 4 =>
    if v.op = 0x28 then
      let x := treeReduce (v.vc % 4) (longFmt v.w) els
      some (s.setPhy i (p.putEls v.w v.vd [x.1]), r.flag 1 x.2)
    else if v.op = 0x29 then
      let x := topOf v.w (els.zipIdx.map (fun e => (e.1, (e.2 + d.f 0x38 0 64) % 2 ^ 64)))
      some (s.setPhy i (p.putEls false v.vd (topWords x.1)), r.flag 1 x.2)
    else
      let x := summaryOf v.vc v.w els
      some (s, { r.flag 1 x.2 with sums := r.sums.put (4 * ctxThread r.cmd.ctx + v.vd) x.1 })
  | some 5 =>
    let x := p.permute v
    some ((s.setPhy i x.1).bump (coreWin i + 0x121C) x.2, r.flag 1 (flagIf (x.2 != 0) fPrange))
  | some 6 =>
    let take (h : BitVec 64) (q : Phys) (r : Run) : State × Run := (s.setPhy i (q.putEls false v.vd [bits h 0 32, bits h 32 32]), r)
    if v.op = 0x38 then
      match p.cur with
      | some h => some (s.setPhy i (p.drainRow h v.vd (v.imm % 256)), r)
      | none => some (s, r)
    else if v.op = 0x39 then
      match (if r.regain then p.cur else none) with
      | some h => some (take h p { r with regain := false })
      | none =>
        match p.popHandle with
        | none => none
        | some _ => (p.retireTile.popHandle).map (fun x => take x.1 x.2 r)
    else if v.op = 0x3A then some (s.vldStep l r k v)
    else some (s.vstStep l r k v)
  | _ =>
    let x := p.elementwise v rnd
    some (s.setPhy i x.1, r.flag 1 x.2)

/-- The code with which an instruction stops a register-mode command, if it does (R191). -/
def Phys.vecCode (p : Phys) (v : VIns) : Option Nat :=
  if !vFieldOk v false then some 0x70
  else if v.op = 2 then (if v.imm + 1 > 512 then some 0x72 else none)
  else if v.op = 0x38 ∧ p.cur.isNone then some 0x74
  else match vlLimit v with
    | some m => if p.vl = 0 ∨ p.vl > m then some 0x72 else none
    | none => none

/-- Bytes of the vector register file that a source of `n` elements reads: a scalar its element 0, a row or column vector what it
may broadcast. -/
def srcBytes (wide : Bool) (kind r n : Nat) : Nat × Nat :=
  let b := if wide then 8 else 4
  (2048 * r, if kind = 3 then b else if kind = 0 then b * n else 2048)

/-- What an instruction reads of the register file, the current tile and scratchpad: byte ranges by array (R150, R190, R372). -/
def Phys.vecReads (p : Phys) (v : VIns) : List (Nat × Nat) × List (Nat × Nat) × List (Nat × Nat) :=
  let w := (vWidths v).1
  let u := vUse v.op false
  let n := p.vl
  if v.op < 4 ∨ v.op = 0x39 then ([], [], [])
  else if v.op = 0x38 then
    ([], match p.cur with
      | some h =>
        let r := v.imm % 256
        if hWide h then [(4 * accIdx true (hSlot h) r 0, 8 * hCols h)]
        else [(4 * accIdx false (hSlot h) (2 * r) 0, 4 * hCols h), (4 * accIdx false (hSlot h) (2 * r + 1) 0, 4 * hCols h)]
      | none => [], [])
  else if v.op = 0x3A then
    let a := p.el false v.vb 0
    ([srcBytes false 3 v.vb n], [], (a, fmtBytes v.vc n) :: (if v.vc = 5 then [(zsAfter a n, ceilDiv n 32)] else []))
  else if v.op = 0x3B then ([srcBytes v.w 0 v.va n, srcBytes false 3 v.vb n], [], [])
  else
    ((if u.va then [srcBytes w 0 v.va n] else []) ++ (if u.vb then [srcBytes w v.bb v.vb n] else [])
      ++ (if u.vc then [srcBytes w v.bc v.vc n] else []), [], [])

/-- The storage that an instruction reads is checked: whether a word is uncorrectable. -/
def State.vecRead (s : State) (i : Nat) (v : VIns) : Bool × State :=
  let (rv, ra, rs) := (s.phy i).vecReads v
  let (a, s) := s.eccRead i .vec rv
  let (b, s) := s.accRead i ra
  let (c, s) := s.eccRead i .spd rs
  (a || b || c, s)

/-- One instruction of a register-mode command whose stage `k` has begun: it stops, ends, waits or goes on (R171, R191). -/
def State.vecStep (s : State) (l : Nat) (r : Run) (k : Nat) (x : Nat) : State :=
  let i := s.under l
  let v := vIns x
  let s := if v.op = 0x39 then s.setPhy i ((s.phy i).popPoisoned (s.phy i).hatch) else s
  let p := s.phy i
  match (if p.vpc ≥ 1024 then some 0x73 else p.vecCode v) with
  | some code => s.vecStop l r code
  | none =>
    let (bad, s) := s.vecRead i v
    if bad then s.vecReplay l r
    -- a command that is being stopped takes no further tile (R101)
    else if s.overrunning r.cmd && v.op == 0x39 then s.setPhy i { (s.phy i).retireTile with hatchWait := true }
    else if v.op = 1 then s.vecEnd l r k
    else match s.vecDo l r k v with
      -- VPOP retires the current tile, and then waits for a handle (R176)
      | none => s.setPhy i { (s.phy i).retireTile with hatchWait := true }
      | some (s, r') =>
        let s := s.raisedOvf r r' k
        let r := r'
        let q := s.phy i
        (s.setPhy i { q with vpc := q.vpc + 1, hatchWait := false }).setRun l r

/-- Runs the program of a register-mode stage until it ends, stops or waits. `fuel` bounds the instructions. -/
def State.runProg (s : State) (l id k : Nat) : Nat → State
  | 0 => s
  | fuel + 1 =>
    match s.runOf l id with
    | none => s
    | some r =>
      let i := s.under l
      let a := (r.desc k).f 0x10 0 32 + 4 * (s.phy i).vpc
      if r.done || r.replaying || (r.stage k).done || !(r.stage k).started then s
      else
        -- the fetch of the instruction is a read of scratchpad
        let (bad, s) := s.eccRead i .spd [(a, 4)]
        if bad then s.vecReplay l r
        else
          let s := s.vecStep l r k ((s.phy i).spdN a 4)
          if (s.phy i).hatchWait then s else s.runProg l id k fuel

/-! ### Stream mode (R177, R179, R180) -/

/-- The instructions of a program up to VEND; `none` when it has none within 1,024. -/
def Phys.program (p : Phys) (a : Nat) : Nat → Option (List VIns)
  | 0 => none
  | fuel + 1 =>
    let v := vIns (p.spdN a 4)
    if v.op = 1 then some [v] else (p.program (a + 4) fuel).map (v :: ·)

/-- Whether an operation is an R stage. -/
def isR (v : VIns) : Bool := vClass v.op == some 4

/-- The check of one instruction of a stream program (R172, R177, R191). -/
def streamCode (v : VIns) : Option Nat :=
  let u := vUse v.op true
  if !vFieldOk v true then some 0x70
  else match vClass v.op with
    | some 5 => some 0x71
    | some 6 => some 0x71
    | some 0 => none
    | some 4 => none
    | _ => if v.vd ≠ 0 ∨ (u.vb ∧ v.bb = 0) ∨ (u.vc ∧ v.bc = 0) then some 0x71 else none

/-- The stages of each pass: VNOP, VSETVL and VEND are no stages. -/
def passesOf : List VIns → List (List VIns)
  | [] => [[]]
  | v :: r =>
    if v.op = 3 then [] :: passesOf r
    else if vClass v.op = some 0 then passesOf r
    else match passesOf r with
      | p :: q => (v :: p) :: q
      | [] => [[v]]

/-- A pass obeys R177: at most 8 stages, two R stages, and no register that it both reads and writes. -/
def passOk (p : List VIns) : Bool :=
  let rs := p.filter isR
  let written := (rs.filter (fun v => v.op != 0x2A)).map (·.vd)
  let read := p.flatMap (fun v =>
    let u := vUse v.op true
    (if u.vb && !isR v then [v.vb] else []) ++ (if u.vc && !isR v then [v.vc] else []))
  decide (p.length ≤ 8) && decide (rs.length ≤ 2) && written.all (fun x => !read.contains x)

/-- The full check of a stream program (R191): a status, or its passes. -/
def Phys.streamProg (p : Phys) (a : Nat) : Nat ⊕ List (List VIns) :=
  match p.program a 1024 with
  | none => .inl 0x73
  | some is =>
    match firstSome (is.map streamCode) with
    | some c => .inl c
    | none =>
      let ps := passesOf is
      if decide (ps.length ≤ 2) && ps.all passOk then .inr ps else .inl 0x71

/-- A tile or tensor in the stages: rows of encodings of one width, and the next draw of open values. -/
structure Grid where
  rows : List (List Nat)
  wide : Bool
  next : Nat

/-- The data as operand A of a stage of a width; of data of the other width the spec states no operand: open values. -/
def Grid.as (g : Grid) (w : Bool) : Grid :=
  if g.wide = w then g
  else
    let n := g.rows.length * (g.rows.headD []).length
    { rows := g.rows.zipIdx.map (fun r => r.1.zipIdx.map (fun x =>
        (Config.freeValue 64 (g.next + r.2 * (g.rows.headD []).length + x.2)).toNat % 2 ^ (if w then 64 else 32)))
      wide := w, next := g.next + n }

/-- The element of a broadcast source that meets element (i, j) (R179). -/
def Phys.streamSrc (p : Phys) (wide : Bool) (kind r i j : Nat) : Nat :=
  match kind with
  | 1 => p.el wide r j
  | 2 => p.el wide r i
  | _ => p.el wide r 0

/-- A stage of class L, H or E. -/
def Phys.streamMap (p : Phys) (v : VIns) (rnd : Nat) (g : Grid) : Grid × Fl :=
  let w := vWidths v
  let u := vUse v.op true
  let g := g.as w.1
  let rs := g.rows.zipIdx.map (fun r => r.1.zipIdx.map (fun x =>
    vElemAny v rnd x.1 (if u.vb then p.streamSrc w.1 v.bb v.vb r.2 x.2 else 0) (if u.vc then p.streamSrc w.1 v.bc v.vc r.2 x.2 else 0)))
  ({ g with rows := rs.map (fun r => r.map (·.1)), wide := w.2 }, rs.foldl (fun f r => r.foldl (fun f x => f ||| x.2) f) 0)

/-- Column j of a grid. -/
def Grid.col (g : Grid) (j : Nat) : List Nat := g.rows.map (fun r => r.getD j 0)

/-- A stage of class R (R177, R180): its result goes to vd or to a summary slot, its input on. -/
def Phys.streamReduce (p : Phys) (r : Run) (d : Desc) (v : VIns) (g : Grid) : Phys × Run × Grid :=
  let x := g.as v.w
  let all := x.rows.flatten
  let g' := { g with next := x.next }
  if v.op = 0x28 then
    let runs := if v.vc ≥ 16 then (upTo (x.rows.headD []).length).map x.col else x.rows
    let rs := runs.map (treeReduce (v.vc % 4) (longFmt v.w))
    (p.putEls v.w v.vd (rs.map (·.1)), r.flag 1 (rs.foldl (fun f y => f ||| y.2) 0), g')
  else if v.op = 0x29 then
    let y := topOf v.w (all.zipIdx.map (fun e => (e.1, (e.2 + d.f 0x38 0 64) % 2 ^ 64)))
    (p.putEls false v.vd (topWords y.1), r.flag 1 y.2, g')
  else
    let y := summaryOf v.vc v.w all
    (p, { r.flag 1 y.2 with sums := r.sums.put (4 * ctxThread r.cmd.ctx + v.vd) y.1 }, g')

/-- One pass over a tile. -/
def runPass (d : Desc) (rnd : Nat) (stages : List VIns) (p : Phys) (r : Run) (g : Grid) : Phys × Run × Grid :=
  stages.foldl (fun (x : Phys × Run × Grid) v =>
    if isR v then x.1.streamReduce x.2.1 d v x.2.2
    else
      let y := x.1.streamMap v rnd x.2.2
      (x.1, x.2.1.flag 1 y.2, y.1)) (p, r, g)

/-! ### Source and sink -/

/-- What a VOP stage takes from its source: a tile, with its number in the destination grid. -/
structure Tile where
  grid : Grid
  t : Nat

/-- The entries of the tile of a handle. -/
def Phys.tileGrid (p : Phys) (h : BitVec 64) (next : Nat) : Grid :=
  { rows := (upTo (hRows h)).map (fun i => (upTo (hCols h)).map (fun j => p.accGet (hWide h) (hSlot h) i j))
    wide := hWide h, next := next }

/-- Address of a stage's scratchpad source or sink: an offset from its ring entry where a ring relocates it (R258). -/
def Run.ringIn (r : Run) (k a : Nat) : Nat :=
  if k ≠ 0 ∧ r.handKind (k - 1) = 2 then r.handEntry (k - 1) (r.stage k).round + a else a
def Run.ringOut (r : Run) (k a : Nat) : Nat :=
  if k + 1 < r.stages.length ∧ r.handKind k = 2 then r.handEntry k (r.stage k).round + a else a

/-- A scratchpad source (R244, R664): its rows widened, the flags, and whether R92 counts. -/
def State.spdSource (s : State) (l : Nat) (r : Run) (k : Nat) : Grid × Fl × Bool :=
  let d := r.desc k
  let p := s.phy (s.under l)
  let fmt := d.f 0x17 4 4
  let wide := fmt == 1
  let a := r.ringIn k (d.f 0x28 0 32)
  let pitch := d.f 0x2C 0 32
  let rows := d.f 0x30 0 8 + 1
  let cols := d.f 0x30 8 8 + 1
  let kk := if d.lsApply then s.lossExp r.cmd.part else 0
  let xs := (upTo rows).map (fun i =>
    let zs := if fmt = 5 then p.spdBytes (a + rows * pitch + i * pitch / 16) (ceilDiv cols 32) else []
    loadRun wide fmt kk zs (elemsOf fmt cols (p.spdBytes (a + i * pitch) (fmtBytes fmt cols))))
  ({ rows := xs.map (·.els), wide := wide, next := s.drawn }, xs.foldl (fun f x => f ||| x.fl) 0, xs.any (·.ovf))

/-- Where the sink of a stage puts row `i` of tile `t`: the elements' offset from DST, and the offset of its scale bytes
from the scale array (R245). -/
def sinkRow (d : Desc) (t i : Nat) : Nat × Nat :=
  let tpr := max 1 (d.f 0x18 48 16)
  let row := 256 * (t / tpr) + i
  let pitch := d.f 0x20 0 32
  let fmt := d.f 0x17 0 4
  (row * pitch + 256 * (t % tpr) * elemBits fmt / 8, if fmt = 6 then 4 * row else row * pitch / 16 + 8 * (t % tpr))

/-- Whether `n` bytes at `a` lie in the sink's space (R245): the partition's HBM, or scratchpad; a ring's entry bounds a
relocated sink. -/
def State.sinkOk (s : State) (r : Run) (k a n : Nat) : Bool :=
  let d := r.desc k
  if d.f 0x16 3 2 = 1 then s.inPart r.cmd.part a n
  else if k + 1 < r.stages.length ∧ r.handKind k = 2 then
    decide (a + n ≤ r.handEntry k (r.stage k).round + 2 ^ (Desc.hand r.cmd.desc k 5 4 + 8))
  else decide (a + n ≤ spdSize)

/-- Bytes of a row's scales in the sink's scale array. -/
def scaleBytes (fmt cols : Nat) : Nat := if fmt = 5 then ceilDiv cols 32 else if fmt = 6 then 4 else 0

/-- The extent test of a tile (R245). -/
def State.tileFits (s : State) (r : Run) (k t rows cols : Nat) : Bool :=
  let d := r.desc k
  let dst := r.ringOut k (d.f 0x18 0 48)
  let fmt := d.f 0x17 0 4
  let sc := dst + 256 * d.f 0x34 0 32
  (upTo rows).all (fun i =>
    let o := sinkRow d t i
    s.sinkOk r k (dst + o.1) (fmtBytes fmt cols) && (scaleBytes fmt cols == 0 || s.sinkOk r k (sc + o.2) (scaleBytes fmt cols)))

/-- Reads and writes of the sink's space. -/
def State.sinkGet (s : State) (l : Nat) (r : Run) (k a n : Nat) : List Byte :=
  if (r.desc k).f 0x16 3 2 = 1 then s.peek a n else (s.phy (s.under l)).spdBytes a n
def State.sinkPut (s : State) (l : Nat) (r : Run) (k a : Nat) (bs : List Byte) : State :=
  if (r.desc k).f 0x16 3 2 = 1 then s.writeHbm (some r.cmd.part) a bs else s.spdStore (s.under l) a bs

/-- Writes row `i` of a tile to the sink (R245). -/
def State.sinkWrite (s : State) (l : Nat) (r : Run) (k t i : Nat) (wide : Bool) (xs : List Nat) : State × Run :=
  let d := r.desc k
  let fmt := d.f 0x17 0 4
  let dst := r.ringOut k (d.f 0x18 0 48)
  let o := sinkRow d t i
  let sc := dst + 256 * d.f 0x34 0 32 + o.2
  let chan := if fmt = 6 then vB32 (ofBytes (s.sinkGet l r k sc 4)) else .nan false
  let x := s.storeRun r k fmt wide chan (o.1 * 8 / elemBits fmt) xs
  let old := (s.sinkGet l r k (dst + o.1 + (xs.length - 1) / 2) 1).headD 0
  let s := s.sinkPut l r k (dst + o.1) (runBytes fmt old x.els)
  let s := if fmt = 5 then s.sinkPut l r k sc (x.zs.map (BitVec.ofNat 8)) else s
  (s.stepOvf r.cmd.part d.lsUses x.ovf, (r.flag 2 x.fl).folded k x)

/-- Reads the ZI8 channel scales of a tile from HBM (R245): whether one of them is poisoned (R349). -/
def State.chanRead (s : State) (r : Run) (k t rows : Nat) : Bool × State :=
  let d := r.desc k
  if d.f 0x16 3 2 ≠ 1 ∨ d.f 0x17 0 4 ≠ 6 then (false, s)
  else
    (upTo rows).foldl (fun (x : Bool × State) i =>
      let y := x.2.readHbm (some r.cmd.part) (d.f 0x18 0 48 + 256 * d.f 0x34 0 32 + (sinkRow d t i).2) 4
      (x.1 || y.bad, y.st)) (false, s)

/-- One tile through the passes and to the sink: `none` when its extent leaves the sink's space (R245). -/
def State.streamTile (s : State) (l : Nat) (r : Run) (k : Nat) (ps : List (List VIns)) (g : Grid) (t : Nat) :
    Option (State × Run) :=
  let d := r.desc k
  let i := s.under l
  let rnd := rndFor 0 d.rnd
  let sink := d.f 0x16 3 2
  if sink ≠ 0 ∧ !s.tileFits r k t g.rows.length (g.rows.headD []).length then none
  else
    -- the sink takes the output of the last pass
    let (p, r', out) := ps.foldl
      (fun (x : Phys × Run × Grid) stages => runPass d rnd stages x.1 x.2.1 { g with next := x.2.2.next }) (s.phy i, r, g)
    let s := State.raisedOvf { s.setPhy i p with drawn := out.next } r r' k
    let r := r'
    if sink = 0 then some (s, r)
    else some (out.rows.zipIdx.foldl (fun (x : State × Run) row => x.1.sinkWrite l x.2 k t row.2 out.wide row.1) (s, r))

/-- The registers that a stream program broadcasts are checked (R190). -/
def State.streamRead (s : State) (i : Nat) (ps : List (List VIns)) : Bool × State :=
  s.eccRead i .vec (ps.flatten.flatMap (fun v =>
    let u := vUse v.op true
    (if u.vb && !isR v then [srcBytes (vWidths v).1 v.bb v.vb 0] else [])
      ++ (if u.vc && !isR v then [srcBytes (vWidths v).1 v.bc v.vc 0] else [])))

/-- Byte ranges of the rows of a scratchpad source, and of its scale bytes. -/
def Run.sourceBytes (r : Run) (k : Nat) : List (Nat × Nat) :=
  let d := r.desc k
  let fmt := d.f 0x17 4 4
  let a := r.ringIn k (d.f 0x28 0 32)
  let pitch := d.f 0x2C 0 32
  let rows := d.f 0x30 0 8 + 1
  let cols := d.f 0x30 8 8 + 1
  (upTo rows).flatMap (fun i => (a + i * pitch, fmtBytes fmt cols)
    :: (if fmt = 5 then [(a + rows * pitch + i * pitch / 16, ceilDiv cols 32)] else []))

/-- Byte ranges of accumulator memory of the tile of a handle, row by row. -/
def drainBytes (h : BitVec 64) : List (Nat × Nat) :=
  (upTo (hRows h)).map (fun r => (4 * accIdx (hWide h) (hSlot h) r 0, (if hWide h then 8 else 4) * hCols h))

/-- Whether the oldest handle is one that stage `k` consumes (R258, R259): in a CHAIN, one of the MMA stage before it. -/
def Run.headMine (r : Run) (p : Phys) (k : Nat) : Bool :=
  !r.isChain || (match p.hatch with
    | h :: _ => (slotRange (r.desc (k - 1))).contains (hSlot h)
    | [] => true)

/-- The handle whose tile a stream stage takes next: one that a replay kept, or the oldest of the Hatch if the stage consumes it. -/
def Run.nextHandle (r : Run) (p : Phys) (k : Nat) : Option (BitVec 64 × Phys) :=
  match p.cur with
  | some h => some (h, p)
  | none => if r.headMine p k then p.popHandle else none

/-- Whether a stream stage's round ends with this tile: a CHAIN's with the tile that has LAST set (R258), else the TILE_COUNT-th, or
the one with LAST where TILE_COUNT is 0. -/
def Run.lastTile (r : Run) (k : Nat) (h : BitVec 64) : Bool :=
  let n := (r.desc k).f 0x26 0 16
  if r.isChain || n = 0 then hLast h else decide ((r.stage k).pos + 1 ≥ n)

/-- The next tile of a stream stage: waits, stops, ends the round, or goes on. A tile that proves POISONED as it is drained gives no
output, and comes again with the replay of its chain (R150). -/
def State.streamStep (s : State) (l : Nat) (r : Run) (k : Nat) (ps : List (List VIns)) : State :=
  let d := r.desc k
  let i := s.under l
  let x := r.stage k
  match d.f 0x16 1 2 with
  | 1 =>
    let s := s.setPhy i ((s.phy i).popPoisoned (s.phy i).hatch)
    match r.nextHandle (s.phy i) k with
    | none => s.setPhy i { s.phy i with hatchWait := true }
    | some (h, p) =>
      let (lost, s) := (s.setPhy i { p with pass := false }).accRead i (drainBytes h)
      if lost then (if r.isChain then s.vecReplay l r else s.setPhy i (s.phy i).retireTile)
      else
        let (bad, s) := s.streamRead i ps
        if bad then s.vecReplay l r
        else
          let (bad, s) := s.chanRead r k (hTile h) (hRows h)
          if bad then s.vecStop l r 0x26
          else match s.streamTile l r k ps ((s.phy i).tileGrid h s.drawn) (hTile h) with
          | none => s.vecStop l r 0x14
          | some (s, r) =>
            let s := s.setPhy i (s.phy i).retireTile
            if r.lastTile k h then s.vecEnd l r k
            else s.setRun l (r.setStage k { r.stage k with pos := x.pos + 1 })
  | 2 =>
    let (a, s) := s.eccRead i .spd (r.sourceBytes k)
    let (b, s) := s.streamRead i ps
    if a || b then s.vecReplay l r
    else
      let (g, f, ovf) := s.spdSource l r k
      let s := s.stepOvf r.cmd.part d.lsUses ovf
      let (bad, s) := s.chanRead r k 0 g.rows.length
      if bad then s.vecStop l r 0x26
      else match s.streamTile l (r.flag 2 f) k ps g 0 with
      | none => s.vecStop l r 0x14
      | some (s, r) => s.vecEnd l r k
  | _ => s.vecEnd l r k

/-- Runs a stream stage until it ends, stops or waits. `fuel` bounds the tiles. -/
def State.runStream (s : State) (l id k : Nat) : Nat → State
  | 0 => s
  | fuel + 1 =>
    match s.runOf l id with
    | none => s
    | some r =>
      if r.done || r.replaying || (r.stage k).done || !(r.stage k).started then s
      else match (s.phy (s.under l)).streamProg ((r.desc k).f 0x10 0 32) with
        | .inl code => s.vecStop l r code
        | .inr ps =>
          let s := s.streamStep l r k ps
          if (s.phy (s.under l)).hatchWait || !s.engineMay l r.cmd 4 then s else s.runStream l id k fuel

/-- A VOP stage that waits: for room for its output with SINK_WAIT, for its input with HATCH_WAIT (R260). -/
def State.vopWaits (s : State) (l : Nat) (r : Run) (k : Nat) : State :=
  if r.done || r.replaying || (r.stage k).done || decide (k ≥ r.stages.length) then s
  else
    let i := s.under l
    let p := s.phy i
    let room := r.roomFor k
    s.setPhy i { p with sinkWait := !room, hatchWait := room && !r.inputFor k }

/-- Runs a VOP stage: one round of it at most. -/
def State.runVop (s : State) (l id k : Nat) : State :=
  match s.runOf l id with
  | none => s
  | some r =>
    if !s.stageMay l r k then s.vopWaits l r k
    else
      let s := s.vecBegin l r k
      if (r.desc k).f 0x16 0 1 = 1 then s.runStream l id k 65536 else s.runProg l id k 2048

/-- VOP (R244): the running VOP of tag `tag` goes on until it ends or waits. -/
def execVop (c : Fin 128) (tag : Fin 4096) (s : State) : Host.Outcome State Fault Refusal :=
  match (s.core c.val).run tag.val with
  | some r => if Desc.cls r.cmd.desc = 4 then .next (s.runVop c.val r.cmd.id 0) else .next s
  | none => .next s

/-! ### The instructions as steps -/

/-- The vector stage that runs on logical core `l`: the running command and its stage; of several, one in progress, else the highest
(R259). -/
def State.vecRun (s : State) (l : Nat) : Option (Run × Nat) :=
  (s.core l).running.findSome? (fun r =>
    let ks := (upTo r.stages.length).reverse.filter (fun k => Desc.cls (r.desc k) == 4 && s.stageMay l r k)
    (((ks.find? (fun k => (r.stage k).started)).orElse (fun _ => ks.head?))).map (fun k => (r, k)))

/-- One instruction of the vector command that runs on core `l`: in register mode it is carried out; in stream mode VPASS
ends the first pass (R177), and the other instructions are stages, which VOP runs as a whole. -/
def State.vecIns (s : State) (l : Nat) (x : BitVec 32) : State :=
  match s.vecRun l with
  | none => s
  | some (r, k) =>
    let s := s.vecBegin l r k
    match s.runOf l r.cmd.id with
    | none => s
    | some r =>
      let i := s.under l
      if !(s.phy i).stream then s.vecStep l r k x.toNat
      else if bits x 0 7 = 3 then s.setPhy i { s.phy i with pass := true }
      else s

/-- VNOP (R173). -/
def execVnop (c : Fin 128) (ins : BitVec 32) (s : State) : Host.Outcome State Fault Refusal :=
  .next (s.vecIns c.val (setBits ins 0 7 0x00))

/-- VEND (R176). -/
def execVend (c : Fin 128) (ins : BitVec 32) (s : State) : Host.Outcome State Fault Refusal :=
  .next (s.vecIns c.val (setBits ins 0 7 0x01))

/-- VSETVL (R169). -/
def execVsetvl (c : Fin 128) (ins : BitVec 32) (s : State) : Host.Outcome State Fault Refusal :=
  .next (s.vecIns c.val (setBits ins 0 7 0x02))

/-- VPASS (R177). -/
def execVpass (c : Fin 128) (ins : BitVec 32) (s : State) : Host.Outcome State Fault Refusal :=
  .next (s.vecIns c.val (setBits ins 0 7 0x03))

/-- VADD (R173). -/
def execVadd (c : Fin 128) (ins : BitVec 32) (s : State) : Host.Outcome State Fault Refusal :=
  .next (s.vecIns c.val (setBits ins 0 7 0x08))

/-- VSUB (R173). -/
def execVsub (c : Fin 128) (ins : BitVec 32) (s : State) : Host.Outcome State Fault Refusal :=
  .next (s.vecIns c.val (setBits ins 0 7 0x09))

/-- VMUL (R173). -/
def execVmul (c : Fin 128) (ins : BitVec 32) (s : State) : Host.Outcome State Fault Refusal :=
  .next (s.vecIns c.val (setBits ins 0 7 0x0A))

/-- VMAX (R174). -/
def execVmax (c : Fin 128) (ins : BitVec 32) (s : State) : Host.Outcome State Fault Refusal :=
  .next (s.vecIns c.val (setBits ins 0 7 0x0B))

/-- VMIN (R174). -/
def execVmin (c : Fin 128) (ins : BitVec 32) (s : State) : Host.Outcome State Fault Refusal :=
  .next (s.vecIns c.val (setBits ins 0 7 0x0C))

/-- VABS (R173). -/
def execVabs (c : Fin 128) (ins : BitVec 32) (s : State) : Host.Outcome State Fault Refusal :=
  .next (s.vecIns c.val (setBits ins 0 7 0x0D))

/-- VNEG (R173). -/
def execVneg (c : Fin 128) (ins : BitVec 32) (s : State) : Host.Outcome State Fault Refusal :=
  .next (s.vecIns c.val (setBits ins 0 7 0x0E))

/-- VSCL2 (R173). -/
def execVscl2 (c : Fin 128) (ins : BitVec 32) (s : State) : Host.Outcome State Fault Refusal :=
  .next (s.vecIns c.val (setBits ins 0 7 0x0F))

/-- VCMP (R173). -/
def execVcmp (c : Fin 128) (ins : BitVec 32) (s : State) : Host.Outcome State Fault Refusal :=
  .next (s.vecIns c.val (setBits ins 0 7 0x10))

/-- VSEL (R173). -/
def execVsel (c : Fin 128) (ins : BitVec 32) (s : State) : Host.Outcome State Fault Refusal :=
  .next (s.vecIns c.val (setBits ins 0 7 0x11))

/-- VCVT (R174). -/
def execVcvt (c : Fin 128) (ins : BitVec 32) (s : State) : Host.Outcome State Fault Refusal :=
  .next (s.vecIns c.val (setBits ins 0 7 0x12))

/-- VAND (R173). -/
def execVand (c : Fin 128) (ins : BitVec 32) (s : State) : Host.Outcome State Fault Refusal :=
  .next (s.vecIns c.val (setBits ins 0 7 0x13))

/-- VOR (R173). -/
def execVor (c : Fin 128) (ins : BitVec 32) (s : State) : Host.Outcome State Fault Refusal :=
  .next (s.vecIns c.val (setBits ins 0 7 0x14))

/-- VXOR (R173). -/
def execVxor (c : Fin 128) (ins : BitVec 32) (s : State) : Host.Outcome State Fault Refusal :=
  .next (s.vecIns c.val (setBits ins 0 7 0x15))

/-- VFMA (R174). -/
def execVfma (c : Fin 128) (ins : BitVec 32) (s : State) : Host.Outcome State Fault Refusal :=
  .next (s.vecIns c.val (setBits ins 0 7 0x18))

/-- VDIV (R173). -/
def execVdiv (c : Fin 128) (ins : BitVec 32) (s : State) : Host.Outcome State Fault Refusal :=
  .next (s.vecIns c.val (setBits ins 0 7 0x19))

/-- VSQRT (R173). -/
def execVsqrt (c : Fin 128) (ins : BitVec 32) (s : State) : Host.Outcome State Fault Refusal :=
  .next (s.vecIns c.val (setBits ins 0 7 0x1A))

/-- VRSQ (R173). -/
def execVrsq (c : Fin 128) (ins : BitVec 32) (s : State) : Host.Outcome State Fault Refusal :=
  .next (s.vecIns c.val (setBits ins 0 7 0x1B))

/-- VEXP2 (R181). -/
def execVexp2 (c : Fin 128) (ins : BitVec 32) (s : State) : Host.Outcome State Fault Refusal :=
  .next (s.vecIns c.val (setBits ins 0 7 0x20))

/-- VRED (R180). -/
def execVred (c : Fin 128) (ins : BitVec 32) (s : State) : Host.Outcome State Fault Refusal :=
  .next (s.vecIns c.val (setBits ins 0 7 0x28))

/-- VTOP8 (R180). -/
def execVtop8 (c : Fin 128) (ins : BitVec 32) (s : State) : Host.Outcome State Fault Refusal :=
  .next (s.vecIns c.val (setBits ins 0 7 0x29))

/-- VSUM (R186). -/
def execVsum (c : Fin 128) (ins : BitVec 32) (s : State) : Host.Outcome State Fault Refusal :=
  .next (s.vecIns c.val (setBits ins 0 7 0x2A))

/-- VPERM (R184). -/
def execVperm (c : Fin 128) (ins : BitVec 32) (s : State) : Host.Outcome State Fault Refusal :=
  .next (s.vecIns c.val (setBits ins 0 7 0x30))

/-- VREV (R173). -/
def execVrev (c : Fin 128) (ins : BitVec 32) (s : State) : Host.Outcome State Fault Refusal :=
  .next (s.vecIns c.val (setBits ins 0 7 0x31))

/-- VROT (R173). -/
def execVrot (c : Fin 128) (ins : BitVec 32) (s : State) : Host.Outcome State Fault Refusal :=
  .next (s.vecIns c.val (setBits ins 0 7 0x32))

/-- VZIP (R185). -/
def execVzip (c : Fin 128) (ins : BitVec 32) (s : State) : Host.Outcome State Fault Refusal :=
  .next (s.vecIns c.val (setBits ins 0 7 0x33))

/-- VDRN (R176). -/
def execVdrn (c : Fin 128) (ins : BitVec 32) (s : State) : Host.Outcome State Fault Refusal :=
  .next (s.vecIns c.val (setBits ins 0 7 0x38))

/-- VPOP (R176). -/
def execVpop (c : Fin 128) (ins : BitVec 32) (s : State) : Host.Outcome State Fault Refusal :=
  .next (s.vecIns c.val (setBits ins 0 7 0x39))

/-- VLD (R174). -/
def execVld (c : Fin 128) (ins : BitVec 32) (s : State) : Host.Outcome State Fault Refusal :=
  .next (s.vecIns c.val (setBits ins 0 7 0x3A))

/-- VST (R174). -/
def execVst (c : Fin 128) (ins : BitVec 32) (s : State) : Host.Outcome State Fault Refusal :=
  .next (s.vecIns c.val (setBits ins 0 7 0x3B))

end Sys2Proof.Machine
end

