-- ==== Sys2Proof/Machine/Attention.lean ====
section
/-!
DEFINITION. Machine/Attention.lean: ATTB (R264 to R278): the forward fold of query and key tiles, the final rescale, and the
backward pass.
-/
namespace Sys2Proof.Machine

/-! ### Logarithm and constants -/

/-- Bits of log2 of f in [1, 2), f = x / 2^w, by repeated squaring: `n` bits appended to `acc`. -/
def logLoop (w : Nat) : Nat → Nat → Nat → Nat
  | 0, _, acc => acc
  | n + 1, x, acc =>
    let y := x * x / 2 ^ w
    if y ≥ 2 ^ (w + 1) then logLoop w n (y / 2) (2 * acc + 1) else logLoop w n y (2 * acc)

/-- log2(l) correctly rounded to binary32 (R272). Of a negative operand the spec states no logarithm: `free` stands there. -/
def log2B32 (free l : Nat) : Nat × Fl :=
  match vB32 l with
  | .nan _ => (nanB32, 0)
  | .inf false => (0x7F800000, 0)
  | .inf true => (free, 0)
  | .fin n m q =>
    if n || m = 0 then (free, 0)
    else
      let e := leadExp m q
      let f := m * 2 ^ (320 - Nat.log2 m)
      if f = 2 ^ 320 then packLong pB32 0 (intVal e)
      else
        -- e + 0.b with 128 bits and a sticky bit: the logarithm is irrational
        let b := 2 * logLoop 320 128 f 0 + 1
        let x : Int := e * 2 ^ 129 + b
        let r := roundIeee pB32 0 (x < 0) x.natAbs (-129)
        (r.1, fInexact)

/-- ln 2 cut to 256 bits. -/
def ln2Bits : Nat := 0xB17217F7D1CF79ABC9E3B39803F2F6AF40F343267298B62D8A0D175B8BAAFA2B

/-- RN(SCALE × ln 2) (R277). -/
def scaleLn2 (sc : Nat) : Nat × Fl :=
  match vB32 sc with
  | .fin n m q => if m = 0 then (sc, 0) else roundIeee pB32 0 n (2 * m * ln2Bits + 1) (q - 257)
  | v => packLong pB32 0 v

/-- The result of VEXP2 (R181, R182): y = a × b − c, then 2^y. -/
def exp2u (a b c : Nat) : Nat × Fl :=
  let (y, f) := fmaLong pB32 0 (vB32 a) (vB32 b) (vB32 c).neg
  let (x, g) := exp2 (vB32 y)
  (x, f ||| g)

/-! ### Operands -/

/-- A matrix of operand values by rows. -/
abbrev Mat := List (List Val)

def matAt (a : Mat) (i j : Nat) : Val := (a.getD i []).getD j (.fin false 0 0)

def Desc.bq (d : Desc) : Nat := d.f 0x24 0 16 + 1
def Desc.bk (d : Desc) : Nat := d.f 0x26 0 16 + 1
def Desc.dim (d : Desc) : Nat := d.f 0x28 0 8 + 1

/-- Whether the ATTB mode is ZF8 (R266). -/
def Desc.attb8 (d : Desc) : Bool :=
  let z (f : Nat) : Bool := f == 3 || f == 4
  z (d.f 0x29 0 4) && z (d.f 0x29 4 4)

/-- An operand block widened to the mode's format (R264, R266), with the flags of widening. -/
def Phys.attbMat (p : Phys) (z8 : Bool) (fmt base rows dim : Nat) : Mat × Fl :=
  let bits := elemBits fmt
  let el (r k : Nat) : Val × Fl :=
    let n := r * dim + k
    let x := if bits = 4 then (p.spdByte (base + n / 2)).toNat / 16 ^ (n % 2) % 16 else p.spdN (base + n * bits / 8) (bits / 8)
    let zs := if fmt = 5 then (p.spdByte (base + rows * dim / 2 + n / 32)).toNat else 0
    let v := elemVal fmt x zs
    if z8 || fmt = 2 then (v, 0)
    else
      let w := widen 2 v
      (elemVal 2 w.1 0, w.2)
  let m := (upTo rows).map (fun r => (upTo dim).map (el r))
  (m.map (fun r => r.map (·.1)), m.foldl (fun f r => r.foldl (fun f x => f ||| x.2) f) 0)

/-- Pairs folded from +0 in groups of 32 (R110, R268), for cell (r, c) of a tile whose groups are numbered from `g₀`; an error that
no check finds goes into the entry. -/
def dotFold (ab : List (Val × Val)) (err : Option ArrayErr := none) (r c g₀ : Nat := 0) : Nat × Fl :=
  (blocks 32 (ab.length + 1) ab).zipIdx.foldl
    (fun (x : Nat × Fl) g =>
      let y := foldGroup pB32 0 (vB32 x.1) g.1 (ArrayErr.winOff err r c (g₀ + g.2))
      (keptWrong false y.1 (ArrayErr.keptOff err r c (g₀ + g.2)), x.2 ||| y.2)) (0, 0)

/-- The window of a cell for group `g` of its pairs, with an error. -/
def dotWindow (ab : List (Val × Val)) (g : Nat) (off : Int) : Window :=
  let c := vB32 (dotFold (ab.take (32 * g))).1
  let t := (ab.drop (32 * g)).take 32
  { c := c, ab := t, acc := (groupLoop (accLim pB32) c t).off off }

/-- Whether a group of an ATTB takes part in the checks (R123). -/
def Window.checkedAttb (w : Window) : Bool :=
  (w.acc.special pB32).isNone && (match vB32 (w.acc.round pB32 0).1 with
    | .fin _ _ _ => true
    | _ => false)

/-- The compares that fail in a tile of an ATTB whose groups are numbered from `g₀`; `pairs` gives the pairs of a cell. -/
def dotFailing (pairs : Nat → Nat → List (Val × Val)) (rows cols n g₀ : Nat) (e : ArrayErr) : List (Fin 4) :=
  if e.kind = .rowMax ∨ e.group.val < g₀ ∨ e.group.val ≥ g₀ + ceilDiv n 32 then []
  else
    let g := e.group.val - g₀
    failingIn Window.checkedAttb (fun r c => dotWindow (pairs r c) g (ArrayErr.winOff (some e) r c e.group.val))
      (upTo rows) (upTo cols) e

/-- Whether entry (i, j) is masked (R270). -/
def Desc.masked (d : Desc) (i j : Nat) : Bool :=
  d.f 0x2A 3 1 == 1 && decide ((j : Int) - i > signed 32 (d.f 0x30 0 32))

/-- Key tiles as lists of key rows (R267). -/
def Desc.keyTiles (d : Desc) : List (List Nat) := blocks (if d.dim ≤ 128 then 128 else 256) (d.bk + 1) (upTo d.bk)
def Desc.queryTiles (d : Desc) : List (List Nat) := blocks 256 (d.bq + 1) (upTo d.bq)

/-- Whether a pair of tiles is skipped (R267). -/
def Desc.pairSkipped (d : Desc) (qs ks : List Nat) : Bool := qs.all (fun i => ks.all (fun j => d.masked i j))

def negInf32 : Nat := 0xFF800000

/-- Narrows a binary32 entry to format `fmt` with linear index i × BK + j (R271): its value, and the flags. -/
def Desc.attbNarrow (d : Desc) (fmt i j x : Nat) : Val × Fl :=
  let r := packTo fmt (rndFor fmt d.rnd) d.sat d.seed (i * d.bk + j) (vB32 x)
  (elemVal fmt r.1 0, r.2)

def Desc.pFmt (d : Desc) : Nat := if d.attb8 then 3 else 2
def Desc.dsFmt (d : Desc) : Nat := if d.attb8 then 4 else 2

/-! ### The forward fold (R269 to R272) -/

/-- State of one query row: m, l and the row of O, with the flags of array and vector work so far; the rows of the score tile and of
the P·V tile of every key tile; and whether the check of its maximum has failed. -/
structure AttRow where
  m : Nat
  l : Nat
  o : List Nat
  tiles : List (List Nat × List Nat) := []
  bad : Bool := false
  af : Fl := 0
  vf : Fl := 0

/-- Tile maximum of a row of scores (R269): the entries that are not masked. -/
def tileMax (scale : Nat) (xs : List Nat) : Nat × Fl :=
  if xs.isEmpty then (negInf32, 0)
  else
    let op := if (vB32 scale).sign then 2 else 1
    let b := (treeReduce op pB32 xs).1
    mulLong pB32 0 (vB32 scale) (vB32 b)

/-- A tile maximum that went wrong (R274). -/
def ArrayErr.maxWrong (e : Option ArrayErr) (r mt : Nat) : Nat :=
  match e with
  | some e => if e.kind = .rowMax ∧ e.row.val = r then unsigned 32 (mt + e.delta) else mt
  | none => mt

/-- Whether y exceeds 2^−23 × |mn| (R274). -/
def pastMax (y mn : Val) : Bool :=
  match y, mn with
  | .fin false m q, .fin _ m' q' => m != 0 && finCmp false m q false m' (q' - 23) == .gt
  | .inf false, .fin _ _ _ => true
  | _, _ => false

/-- The pairs of score (i, j), and of entry (·, c) of a P·V tile with the P row `ps`. -/
def scorePairs (q k : Mat) (i j : Nat) : List (Val × Val) := (q.getD i []).zip (k.getD j [])
def pvPairs (ps : List Val) (v : Mat) (ks : List Nat) (c : Nat) : List (Val × Val) := ps.zip (ks.map (fun j => matAt v j c))

/-- attb_fold (R271): row `i` of the queries against a key tile `ks`. A masked entry raises no flag (R270). -/
def Desc.attbFold (d : Desc) (q k v : Mat) (i : Nat) (ks : List Nat) (x : AttRow) (err : Option ArrayErr := none) : AttRow :=
  let sc := d.f 0x2C 0 32
  let s := ks.zipIdx.map (fun j => dotFold (scorePairs q k i j.1) err (i % 256) j.2)
  let vis := (ks.zip s).filter (fun y => !d.masked i y.1)
  let af := vis.foldl (fun f y => f ||| y.2.2) x.af
  let (mt, f₁) := tileMax sc (vis.map (·.2.1))
  let mt := ArrayErr.maxWrong err (i % 256) mt
  let mn := if (vB32 x.m).isNan || (vB32 mt).isNan then nanB32 else (pickNode 1 pB32 x.m mt).1
  let zeros := List.replicate d.dim 0
  if mn = negInf32 then { x with af := af, vf := x.vf ||| f₁, tiles := x.tiles ++ [(s.map (·.1), zeros)] }
  else
    let past := vis.any (fun y => pastMax (vB32 (fmaLong pB32 0 (vB32 y.2.1) (vB32 sc) (vB32 mn).neg).1) (vB32 mn))
    let (alpha, f₂) := if x.m = negInf32 then (0, (0 : Fl)) else exp2u x.m 0x3F800000 mn
    let ps := (ks.zip s).map (fun y =>
      if d.masked i y.1 then (Val.fin false 0 0, (0 : Fl))
      else
        let (e, f) := exp2u y.2.1 sc mn
        let (p, g) := d.attbNarrow d.pFmt i y.1 e
        (p, f ||| g))
    let f₃ := ps.foldl (fun f y => f ||| y.2) (0 : Fl)
    let (rs, f₄) := treeReduce 0 pB32 (ps.map (fun y => (packLong pB32 0 y.1).1))
    let (l, f₅) := fmaLong pB32 0 (vB32 x.l) (vB32 alpha) (vB32 rs)
    let pv := (upTo d.dim).map (fun c => dotFold (pvPairs (ps.map (·.1)) v ks c) err (i % 256) c (ceilDiv d.dim 32))
    let o := (x.o.zip pv).map (fun y => fmaLong pB32 0 (vB32 y.1) (vB32 alpha) (vB32 y.2.1))
    { m := mn, l := l, o := o.map (·.1), tiles := x.tiles ++ [(s.map (·.1), pv.map (·.1))], bad := x.bad || past, af := pv.foldl (fun f y => f ||| y.2) af
      vf := o.foldl (fun f y => f ||| y.2) (x.vf ||| f₁ ||| f₂ ||| f₃ ||| f₄ ||| f₅) }

/-- The final rescale of a row (R272); `free` stands for a logarithm that the spec does not state. -/
def attbLast (free : Nat) (x : AttRow) : AttRow :=
  if (vB32 x.m).isNan then { x with m := nanB32, o := x.o.map (fun _ => nanB32) }
  else if x.l = 0 then { x with m := negInf32, o := x.o.map (fun _ => 0) }
  else
    let o := x.o.map (fun y => divLong pB32 0 (vB32 y) (vB32 x.l))
    let (lam, f) := log2B32 free x.l
    let (mu, g) := addLong pB32 0 (vB32 x.m) (vB32 lam)
    { x with m := mu, o := o.map (·.1), vf := o.foldl (fun f y => f ||| y.2) (x.vf ||| f ||| g) }

/-- A row of binary32 words from scratchpad. -/
def Phys.words (p : Phys) (a n : Nat) : List Nat := (upTo n).map (fun k => p.spdN (a + 4 * k) 4)

/-- What an ATTB leaves: stores in order, as (address, bytes), its flags by set, the rows of tiles that entered accumulator memory in
order, as (slot, row, entries), and the compares that failed. -/
structure AttOut where
  stores : List (Nat × List Byte) := []
  mat : Fl := 0
  vec : Fl := 0
  xfer : Fl := 0
  tiles : List (Nat × Nat × List Nat) := []
  fails : List (Fin 4) := []
  badRows : List Nat := []

def wordBytes (xs : List Nat) : List Byte := xs.flatMap (fun x => toBytes 4 x)

/-- Pairs of query tile and key tile that are not skipped, in order (R267). -/
def Desc.attbPairs (d : Desc) : List (List Nat × List Nat) :=
  (d.queryTiles.flatMap (fun qs => d.keyTiles.map (fun ks => (qs, ks)))).filter (fun p => !d.pairSkipped p.1 p.2)

/-- The P row of a query row against a key tile, as its fold forms it from an earlier maximum `m`. -/
def Desc.attbP (d : Desc) (q k : Mat) (i m : Nat) (ks : List Nat) : List Val :=
  let sc := d.f 0x2C 0 32
  let s := ks.map (fun j => (dotFold (scorePairs q k i j)).1)
  let vis := (ks.zip s).filter (fun y => !d.masked i y.1)
  let mt := (tileMax sc (vis.map (·.2))).1
  let mn := if (vB32 m).isNan || (vB32 mt).isNan then nanB32 else (pickNode 1 pB32 m mt).1
  (ks.zip s).map (fun y => if d.masked i y.1 ∨ mn = negInf32 then .fin false 0 0 else (d.attbNarrow d.pFmt i y.1 (exp2u y.2 sc mn).1).1)

/-- The compares that an error fails in the tiles of the first pair: score tile, then P·V tile. -/
def Desc.attbFails (d : Desc) (q k v : Mat) (start : Nat → Nat) (e : ArrayErr) : List (Fin 4) :=
  match d.attbPairs with
  | [] => []
  | (qs, ks) :: _ =>
    let n := ceilDiv d.dim 32
    dotFailing (fun r c => scorePairs q k (qs.getD r 0) (ks.getD c 0)) qs.length ks.length d.dim 0 e
      ++ (if d.f 0x2A 2 1 = 1 then [] else
        dotFailing (fun r c => pvPairs (d.attbP q k (qs.getD r 0) (start (qs.getD r 0)) ks) v ks c) qs.length d.dim ks.length n e)

/-- The forward pass. Tiles take their slots alternately (R268), counted over the pairs of the command; an error falls on the first
pair. -/
def Phys.attbForward (p : Phys) (d : Desc) (free : Nat) (err : Option ArrayErr := none) : AttOut :=
  let dim := d.dim
  let fk := d.f 0x29 4 4
  let (q, f₁) := p.attbMat d.attb8 (d.f 0x29 0 4) (d.f 0x10 0 32) d.bq dim
  let (k, f₂) := p.attbMat d.attb8 fk (d.f 0x14 0 32) d.bk dim
  let (v, f₃) := p.attbMat d.attb8 fk (d.f 0x18 0 32) d.bk dim
  let o := d.f 0x1C 0 32
  let st := d.f 0x20 0 32
  let start (i : Nat) : AttRow :=
    if d.f 0x2A 0 1 = 1 then { m := negInf32, l := 0, o := List.replicate dim 0 }
    else { m := p.spdN (st + 8 * i) 4, l := p.spdN (st + 8 * i + 4) 4, o := p.words (o + 4 * dim * i) dim }
  let pairs := d.attbPairs
  let row (qs : List Nat) (i : Nat) : AttRow :=
    let x := (pairs.zipIdx.filter (fun y => y.1.1 == qs)).foldl
      (fun x y => d.attbFold q k v i y.1.2 x (if y.2 = 0 then err else none)) (start i)
    if d.f 0x2A 1 1 = 1 then attbLast free x else x
  let rows := d.queryTiles.flatMap (fun qs => qs.map (fun i => (i, row qs i)))
  let sl := d.f 0x2A 4 3
  let tiles := pairs.zipIdx.flatMap (fun y =>
    let n := ((pairs.take y.2).filter (fun z => z.1 == y.1.1)).length
    (rows.filter (fun r => y.1.1.contains r.1)).flatMap (fun r =>
      let t := r.2.tiles.getD n ([], [])
      [(sl + y.2 % 2, r.1 % 256, t.1), (sl + 2 + y.2 % 2, r.1 % 256, t.2)]))
  { stores := rows.flatMap (fun r => [(o + 4 * dim * r.1, wordBytes r.2.o), (st + 8 * r.1, wordBytes [r.2.m, r.2.l])])
    mat := rows.foldl (fun f r => f ||| r.2.af) 0, vec := rows.foldl (fun f r => f ||| r.2.vf) 0, xfer := f₁ ||| f₂ ||| f₃
    tiles := tiles, fails := (err.map (d.attbFails q k v (fun i => (start i).m))).getD []
    badRows := (rows.filter (·.2.bad)).map (·.1) }

/-! ### The backward pass (R277) -/

/-- Gradients in progress, by rows of binary32 encodings, and the flags. -/
structure AttGrad where
  dq : List (List Nat)
  dk : List (List Nat)
  dv : List (List Nat)
  af : Fl := 0
  vf : Fl := 0

/-- Adds a product tile to rows `is` of a gradient, with one rounding for each entry. -/
def addTile (g : List (List Nat)) (is : List Nat) (t : List (List (Nat × Fl))) : List (List Nat) × Fl × Fl :=
  (is.zip t).foldl
    (fun (x : List (List Nat) × Fl × Fl) r =>
      let ys := ((x.1.getD r.1 []).zip r.2).map (fun y => (addLong pB32 0 (vB32 y.1) (vB32 y.2.1), y.2.2))
      (x.1.set r.1 (ys.map (·.1.1)), ys.foldl (fun f y => f ||| y.2) x.2.1, ys.foldl (fun f y => f ||| y.1.2) x.2.2)) (g, 0, 0)

/-- One pair of query tile and key tile of the backward pass. -/
def Desc.attbPair (d : Desc) (q k v dO : Mat) (stats : List (Nat × Nat)) (c : Nat) (qs ks : List Nat) (g : AttGrad)
    (err : Option ArrayErr := none) : AttGrad :=
  let sc := d.f 0x2C 0 32
  let cell (i j : Nat) : (Val × Val) × Fl × Fl :=
    if d.masked i j then ((.fin false 0 0, .fin false 0 0), 0, 0)
    else
      let (mu, delta) := stats.getD i (0, 0)
      let (s, f₁) := dotFold (scorePairs q k i j) err (i % 256) (j % 256)
      let (e, f₂) := exp2u s sc mu
      let (p, f₃) := d.attbNarrow d.pFmt i j e
      let (dp, f₄) := dotFold ((dO.getD i []).zip (v.getD j []))
      let (t, f₅) := addLong pB32 0 (vB32 dp) (vB32 delta).neg
      let (w, f₆) := mulLong pB32 0 p (vB32 t)
      let (x, f₇) := mulLong pB32 0 (vB32 w) (vB32 c)
      let (ds, f₈) := d.attbNarrow d.dsFmt i j x
      ((p, ds), f₁ ||| f₄, f₂ ||| f₃ ||| f₅ ||| f₆ ||| f₇ ||| f₈)
  let cs := qs.map (fun i => ks.map (cell i))
  let af := cs.foldl (fun f r => r.foldl (fun f x => f ||| x.2.1) f) g.af
  let vf := cs.foldl (fun f r => r.foldl (fun f x => f ||| x.2.2) f) g.vf
  let p (a b : Nat) : Val := (((cs.getD a []).getD b ((.fin false 0 0, .fin false 0 0), 0, 0)).1).1
  let ds (a b : Nat) : Val := (((cs.getD a []).getD b ((.fin false 0 0, .fin false 0 0), 0, 0)).1).2
  let cols := upTo d.dim
  let tv := ks.zipIdx.map (fun j => cols.map (fun e => dotFold (qs.zipIdx.map (fun i => (p i.2 j.2, matAt dO i.1 e)))))
  let tq := qs.zipIdx.map (fun i => cols.map (fun e => dotFold (ks.zipIdx.map (fun j => (ds i.2 j.2, matAt k j.1 e)))))
  let tk := ks.zipIdx.map (fun j => cols.map (fun e => dotFold (qs.zipIdx.map (fun i => (ds i.2 j.2, matAt q i.1 e)))))
  let (dv, a₁, b₁) := addTile g.dv ks tv
  let (dq, a₂, b₂) := addTile g.dq qs tq
  let (dk, a₃, b₃) := addTile g.dk ks tk
  { dq := dq, dk := dk, dv := dv, af := af ||| a₁ ||| a₂ ||| a₃, vf := vf ||| b₁ ||| b₂ ||| b₃ }

/-- The backward pass. -/
def Phys.attbBackward (p : Phys) (d : Desc) (err : Option ArrayErr := none) : AttOut :=
  let dim := d.dim
  let fq := d.f 0x29 0 4
  let fk := d.f 0x29 4 4
  let (q, f₁) := p.attbMat d.attb8 fq (d.f 0x10 0 32) d.bq dim
  let (k, f₂) := p.attbMat d.attb8 fk (d.f 0x14 0 32) d.bk dim
  let (v, f₃) := p.attbMat d.attb8 fk (d.f 0x18 0 32) d.bk dim
  let (dO, f₄) := p.attbMat d.attb8 fq (d.f 0x1C 0 32) d.bq dim
  let st := d.f 0x20 0 32
  let stats := (upTo d.bq).map (fun i => (p.spdN (st + 8 * i) 4, p.spdN (st + 8 * i + 4) 4))
  let grad (a n : Nat) : List (List Nat) := (upTo n).map (fun i => p.words (a + 4 * dim * i) dim)
  let (c, f₅) := scaleLn2 (d.f 0x2C 0 32)
  let aq := d.f 0x34 0 32
  let ak := d.f 0x38 0 32
  let av := d.f 0x3C 0 32
  let g : AttGrad := {
    dq := if d.f 0x2A 0 1 = 1 then List.replicate d.bq (List.replicate dim 0) else grad aq d.bq
    dk := grad ak d.bk, dv := grad av d.bk, vf := f₅ }
  let g := d.attbPairs.zipIdx.foldl (fun g y => d.attbPair q k v dO stats c y.1.1 y.1.2 g (if y.2 = 0 then err else none)) g
  let put (a : Nat) (xs : List (List Nat)) : List (Nat × List Byte) := xs.zipIdx.map (fun r => (a + 4 * dim * r.2, wordBytes r.1))
  { stores := put aq g.dq ++ put ak g.dk ++ put av g.dv, mat := g.af, vec := g.vf, xfer := f₁ ||| f₂ ||| f₃ ||| f₄
    fails := (err.map (d.attbFails q k v (fun _ => 0))).getD [] }

/-- Ranges of the ATTB with their operands: Q, K, V, O or dO, STATS and, in the backward pass, the gradients. -/
def Desc.attbRanges (d : Desc) : List (Nat × Nat) :=
  (descRanges 0 d []).1.map (fun y => (y.1 - spdSpace 0, y.2))

/-- Where ranges of the ATTB overlap, what stands there afterwards is open (R265). -/
def attbBytesAt (draw : Nat) (rs : List (Nat × Nat)) (a : Nat) (b : Byte) : Byte :=
  if (rs.filter (fun r => decide (r.1 ≤ a ∧ a < r.1 + r.2))).length ≥ 2 then Config.freeValue 8 (draw + a) else b

/-- Rows of tiles enter accumulator memory (R268). -/
def Phys.putTiles (p : Phys) (ts : List (Nat × Nat × List Nat)) : Phys :=
  ts.foldl (fun p t =>
    (t.2.2.zipIdx.foldl (fun p x => p.accPut false t.1 t.2.1 x.2 x.1) p).wrote .acc (4 * accIdx false t.1 t.2.1 0) (4 * t.2.2.length)) p

/-- Rows of four slots become open: what a backward pass leaves in them is not stated. -/
def Phys.openSlots (p : Phys) (sl draw : Nat) : Phys :=
  { p with
    acc := p.acc.filter (fun x => !decide (sl ≤ x.1 / 65536 ∧ x.1 / 65536 < sl + 4))
    accFree := (upTo 4).foldl (fun t j => t.put (sl + j) (draw + 65536 * j)) p.accFree
    accUps := p.accUps.filter (fun x => !decide (sl ≤ x.1 / 32768 ∧ x.1 / 32768 < sl + 4)) }

/-- Runs an ATTB (R271, R277) once its four slots are FREE. A check that fails stops it for a replay (R123, R274, R372). -/
def State.runAttb (s : State) (l : Nat) (r : Run) (err : Option ArrayErr := none) : State :=
  let d := r.desc 0
  let i := s.under l
  let sl := d.f 0x2A 4 3
  let r := { r with stages := r.stages.map (fun y => { y with started := true }) }
  if !(upTo 4).all (fun t => ((s.phy i).slot (sl + t)).st == .free) then
    (s.setPhy i { s.phy i with mxAccWait := true }).setRun l r
  else
    let rs := d.attbRanges
    let (bad, s) := s.eccRead i .spd rs
    if bad then s.askReplay l r.cmd.id
    else
      let p := { s.phy i with mxAccWait := false }
      let back := d.f 0x2A 2 1 == 1
      let x := if back then p.attbBackward d err else p.attbForward d (s.draw 32).toNat err
      let s := match err with
        | some e => if x.fails.isEmpty then s else s.chkFailures i r.again e x.fails
        | none => s
      let s := if x.badRows.isEmpty then s
        else (x.badRows.foldl (fun s row => s.chkMismatch i 3 (row % 256) 0 0) s).fault 0x01 (chkSev r.again)
          (3 + x.badRows.getLastD 0 % 256 * 4) i 0
      if !x.fails.isEmpty || !x.badRows.isEmpty then s.askReplay l r.cmd.id
      else
        let base := s.drawn + 1
        let stores := x.stores.map (fun y => (y.1, y.2.zipIdx.map (fun b => attbBytesAt base rs (y.1 + b.2) b.1)))
        let p := if back then p.openSlots sl (base + spdSize) else p.putTiles x.tiles
        let s := stores.foldl (fun s y => s.spdStore i y.1 y.2) (s.setPhy i p)
        let s := { s with drawn := base + spdSize + 2 ^ 18 }
        (s.setRun l (((r.flag 0 x.mat).flag 1 x.vec).flag 2 x.xfer)).finish l r.cmd.id 0

/-- ATTB (R271): the running ATTB of tag `job.tag` is computed; `job.err` is an error of the array in it. -/
def execAttb (c : Fin 128) (job : ArrayJob) (s : State) : Host.Outcome State Fault Refusal :=
  match (s.core c.val).run job.tag.val with
  | some r => if Desc.cls r.cmd.desc = 2 ∧ !r.done ∧ !r.replaying then .next (s.runAttb c.val r job.err) else .next s
  | none => .next s

end Sys2Proof.Machine
end

