-- ==== Sys2Proof/Machine/Msg.lean ====
section
/-!
DEFINITION. Machine/Msg.lean: sending messages (R429 to R445, R447, R450): routes, fragments and their flits, reserved
bandwidth, and what the end of a message does for its owner. Receiving is in Machine/Receive.lean.
-/
namespace Sys2Proof.Machine

def State.port (s : State) (p : Nat) : Port := s.ports.get {} p
def State.setPort (s : State) (p : Nat) (x : Port) : State := { s with ports := s.ports.put p x }
def State.setMsg (s : State) (m : MsgSt) : State := { s with msg := m }

/-- Whether a writer of the record areas writes for partition `p`: the host that owns it, the partition itself, or Joinery. -/
def State.writesFor (s : State) (w : Writer) (p : Nat) : Bool :=
  match w with
  | .joinery => true
  | .host h => s.hears (Requester.ofPort h.val) && s.partHost p == h.val + 1
  | .part q => q.val == p

/-! ### Poison in ranges (R349, R447) -/

/-- The poisoned blocks of `n` bytes at `a`, as ranges relative to `a`. -/
def State.badIn (s : State) (a n : Nat) : List (Nat × Nat) :=
  ((s.poison.map (·.1)).filter (fun b => overlap (64 * b, 64) (a, n))).map (fun b => (64 * b - a, 64 * b + 64 - max a (64 * b)))

/-- Writes bytes of which the ranges `bad` are poisoned: each block they touch is poisoned. -/
def State.writeBad (s : State) (p : Option Nat) (a : Nat) (bs : List Byte) (bad : List (Nat × Nat)) : State :=
  bad.foldl (fun s r => (upTo (ceilDiv (a % 64 + r.2) 64 + 1)).foldl (fun s i =>
    let b := (a + r.1) / 64 + i
    if overlap (64 * b, 64) (a + r.1, r.2) && overlap (64 * b, 64) (a, bs.length) then s.setPoison b else s) s) (s.writeHbm p a bs)

/-! ### Routes (R432) -/

/-- The step that a fragment takes in dimension `k`, or none. -/
def State.routeDim (s : State) (cur dst k : Nat) : Option Nat :=
  let c := coord cur k
  let d := coord dst k
  let n := s.dim k
  if c = d then none
  else if s.rec_ msgCtl (1 + k) 1 = 1 then
    let fwd := (d + n - c) % n
    some (if 2 * fwd ≤ n then 2 * k else 2 * k + 1)
  else some (if d > c then 2 * k else 2 * k + 1)

/-- route_port: 6 at the destination. -/
def State.routePort (s : State) (cur dst : Nat) : Nat :=
  match s.routeDim cur dst 0, s.routeDim cur dst 1, s.routeDim cur dst 2 with
  | some p, _, _ => p
  | none, some p, _ => p
  | none, none, some p => p
  | none, none, none => 6

/-- Hop count of the path from `cur` to `dst`. -/
def State.hops (s : State) (cur dst : Nat) : Nat :=
  (upTo 3).foldl (fun a k =>
    let c := coord cur k
    let d := coord dst k
    let n := s.dim k
    let fwd := (d + n - c) % n
    a + (if c = d then 0 else if s.rec_ msgCtl (1 + k) 1 = 1 then min fwd (n - fwd) else max c d - min c d)) 0

/-- The identifier of the module one step from `id` through port `p` (R430). -/
def State.neighbour (s : State) (id p : Nat) : Option Nat :=
  let k := p / 2
  let c := coord id k
  let n := s.dim k
  let wrap := s.rec_ msgCtl (1 + k) 1 = 1
  let c' := if p % 2 = 0 then (if c + 1 < n then some (c + 1) else if wrap then some 0 else none)
    else (if c > 0 then some (c - 1) else if wrap then some (n - 1) else none)
  c'.map (fun v => id - c * 2 ^ (7 * k) + v * 2 ^ (7 * k))

/-! ### Fragments and flits (R435, R436) -/

/-- A fragment: header fields, data, and the positions of its poisoned data bytes as ranges (R447). -/
structure Frag where
  dest : Nat
  src : Nat
  kind : Nat
  prov : Bool := false
  res : Bool := false
  mtag : Nat := 0
  epoch : Nat := 0
  frag : Nat := 0
  nfrag : Nat := 0
  addr : Nat := 0
  arg : Nat := 0
  data : List Byte := []
  bad : List (Nat × Nat) := []
  /-- READ: its length in bytes stands in place of FRAG -/
  readLen : Option Nat := none

def fragMax : Nat := 15584

/-- The 32-byte header. -/
def Frag.header (f : Frag) : List Byte :=
  toBytes 4 (f.src + f.kind * 2 ^ 20 + b2n f.prov * 2 ^ 24 + b2n f.res * 2 ^ 25)
    ++ toBytes 2 f.mtag ++ toBytes 2 f.epoch ++ toBytes 4 (f.readLen.getD (f.frag % 2 ^ 20)) ++ toBytes 4 f.nfrag
    ++ toBytes 8 (f.addr % 2 ^ 48 + (f.data.length - 1) % 2 ^ 14 * 2 ^ 48) ++ toBytes 8 f.arg

/-- A DATA flit on VC `vc`: MCTL and payload; SEQ and CRC are filled when it is sent. -/
def dataFlit (vc dest pos : Nat) (bad : Bool) (payload : List Byte) : BitVec 2048 :=
  BitVec.ofNat 2048 (1 + vc * 16 + (dest + pos * 2 ^ 20 + b2n bad * 2 ^ 22) * 2 ^ 32 + ofBytes (payload.take 244) * 2 ^ 64)

/-- The flits of a fragment on VC `vc`. -/
def Frag.flits (f : Frag) (vc : Nat) : List (BitVec 2048) :=
  let body := f.data.drop 212
  let more := blocks 244 (body.length + 1) body
  let n := more.length
  let hit (a len : Nat) : Bool := f.bad.any (fun r => overlap r (a, len))
  dataFlit vc f.dest (if n = 0 then 0 else 1) (hit 0 212) (f.header ++ f.data.take 212)
    :: more.zipIdx.map (fun b => dataFlit vc f.dest (if b.2 + 1 = n then 3 else 2) (hit (212 + 244 * b.2) 244) b.1)

/-- POS, DEST and VC of a DATA flit. -/
def flitPos (x : BitVec 2048) : Nat := bits x 52 2
def flitDest (x : BitVec 2048) : Nat := bits x 32 20
def flitVc (x : BitVec 2048) : Nat := bits x 4 2
def flitBad (x : BitVec 2048) : Bool := bit x 54
def flitPayload (x : BitVec 2048) : List Byte := toBytes 244 (bits x 64 1952)

/-- The fragment that a run of flits carries. -/
def fragOf (fs : List (BitVec 2048)) : Frag :=
  let bs := fs.flatMap flitPayload
  let n (a w : Nat) : Nat := ofBytes ((bs.drop a).take w)
  let len := n 0x10 8 / 2 ^ 48 % 2 ^ 14 + 1
  let kind := n 0 4 / 2 ^ 20 % 16
  { dest := flitDest (fs.headD 0), src := n 0 4 % 2 ^ 20, kind := kind, prov := n 0 4 / 2 ^ 24 % 2 == 1, res := n 0 4 / 2 ^ 25 % 2 == 1
    mtag := n 4 2, epoch := n 6 2, frag := n 8 4 % 2 ^ 20, nfrag := n 12 4 % 2 ^ 20, addr := n 0x10 8 % 2 ^ 48, arg := n 0x18 8
    data := (bs.drop 32).take len
    bad := (fs.zipIdx.filter (fun x => flitBad x.1)).map (fun x => if x.2 = 0 then (0, 212) else (212 + 244 * (x.2 - 1), 244))
    readLen := if kind = 11 then some (n 8 4) else none }

/-! ### Sending -/

/-- Queues a fragment on a port and VC (R433). -/
def State.queueFrag (s : State) (p vc : Nat) (x : OutFrag) : State :=
  let q := s.port p
  s.setPort p { q with outq := q.outq.upd [] vc (· ++ [x]) }

/-- Cuts data into fragments. -/
def fragData (data : List Byte) : List (List Byte) :=
  if data.isEmpty then [[]] else blocks fragMax (data.length / fragMax + 1) data

/-- What a sender says of a message beside its data. -/
structure Send where
  dest : Nat
  kind : Nat
  vc : Nat
  res : Bool := false
  epoch : Nat := 0
  addr : Nat := 0
  arg : Nat := 0
  owner : MsgOwner := .other
  /-- commands not yet across the Sill, and provisional entries, that its source depends on (R450, R516) -/
  cmds : List Nat := []
  links : List Nat := []
  bad : List (Nat × Nat) := []
  readLen : Option Nat := none
  /-- how far ADDR advances per fragment -/
  adv : Nat := fragMax

/-- Whether a port can carry messages (R430, R445). -/
def State.portReady (s : State) (p : Nat) : Bool :=
  (s.port p).st == .up && s.rec_ (0xF000140100 + 0x80 * p + 8) 1 1 == 0

/-- Sends a message (R435, R445, R450): false, and nothing sent, when the first-hop port is not UP. A message for which the
sender waits (kinds 0 to 3 and READ) is kept until it ends. -/
def State.send (s : State) (x : Send) (data : List Byte) : Bool × State :=
  let me := s.myId
  let p := s.routePort me x.dest
  if p ≥ 6 ∨ !s.portReady p then (false, s)
  else
    let k := s.msg.next
    let parts := fragData data
    let prov := !x.cmds.isEmpty || !x.links.isEmpty
    let waits := decide (x.kind < 4) || x.kind == 11
    let m : Msg := {
      dest := x.dest, mtag := k % 65536, port := p, owner := x.owner, kind := x.kind, res := x.res, prov := prov, cmds := x.cmds, links := x.links,
      poison := !x.bad.isEmpty }
    let s := s.setMsg { s.msg with next := k + 1, out := if waits then s.msg.out.put k m else s.msg.out }
    let s := if x.bad.isEmpty then s else s.fault 0x09 2 1 me (k % 65536)
    (true, parts.zipIdx.foldl (fun s d =>
      let f : Frag := {
        dest := x.dest, src := me, kind := x.kind, prov := prov, res := x.res, mtag := k % 65536, epoch := x.epoch, frag := d.2,
        nfrag := parts.length - 1, addr := x.addr + x.adv * d.2, arg := x.arg, data := d.1, readLen := x.readLen
        bad := (x.bad.filter (fun r => overlap r (fragMax * d.2, fragMax))).map (fun r =>
          (r.1 - fragMax * d.2, r.1 + r.2 - max r.1 (fragMax * d.2))) }
      s.queueFrag p x.vc { flits := f.flits x.vc, own := if waits then some k else none, last := decide (d.2 + 1 = parts.length) }) s)

/-- Sends a single-flit message of kinds 4 to 10 on VC3, for which nobody waits (R437). -/
def State.tell (s : State) (dest kind epoch arg : Nat) : State :=
  (s.send { dest := dest, kind := kind, vc := 3, epoch := epoch, arg := arg } []).2

/-! ### What a source depends on (R450, R516) -/

/-- Commands that have not crossed the Sill and whose writes meet a range. -/
def State.uncrossed (s : State) (rs : List (Nat × Nat)) : List Nat :=
  (s.sill.retired.filter (fun e => e.writes.any (fun w => rs.any (overlap w)))).map (·.id)

/-- A message whose source is the ranges `rs`, read by command or engine. -/
def State.sendFrom (s : State) (x : Send) (rs : List (Nat × Nat)) (data : List Byte) : Bool × State :=
  s.send { x with cmds := s.uncrossed rs, links := s.provReads rs } data

/-! ### Reserved bandwidth (R439 to R441) -/

def portRec (p : Nat) : Nat := 0xF000140100 + 0x80 * p

/-- The lanes that have not FAILED. -/
def laneList (failed : BitVec 52) : List Nat := (upTo 52).filter (fun l => !failed.getLsbD l)

/-- build_map (R416): the physical lane of each logical lane; 48, 24 or no entries. -/
def buildMap (failed : BitVec 52) : List Nat :=
  let spares := (laneList failed).filter (fun l => decide (l ≥ 48))
  let m := (upTo 48).foldl (fun (x : List (Option Nat) × List Nat) l =>
    if failed.getLsbD l then (match x.2 with
      | a :: r => (x.1 ++ [some a], r)
      | [] => (x.1 ++ [none], []))
    else (x.1 ++ [some l], x.2)) ([], spares)
  if m.1.all (·.isSome) then m.1.map (·.getD 0)
  else
    let ok := (laneList failed).take 24
    if ok.length = 24 then ok else []

/-- Whether a direction runs at half width (R417). -/
def isHalf (failed : BitVec 52) : Bool := (buildMap failed).length == 24

/-- The limit of a port per turn in units (R440). -/
def State.resLimit (s : State) (p : Nat) : Nat := s.period * (if isHalf (s.port p).txFailed then 600 else 1200) * 3 / 16384

/-- The check of a tick (R440); what was charged starts anew (R441). -/
def State.resTick (s : State) : State :=
  let s := (upTo 6).foldl (fun s p =>
    let a := portRec p
    let cap := s.rec_ a 0 32
    let sum : Nat := (upTo 16).foldl (fun n q => n + s.rec_ (a + 0x40 + 4 * q) 0 32) 0
    let bad : Bool := decide (s.resLimit p < cap ∨ cap < sum)
    (s.setRec (a + 8) 0 1 (b2n bad)).setRec (a + 8) 32 32 0) s
  s.setMsg { s.msg with charged := [], vc2 := [] }

/-- Units of `n` bytes. -/
def units4k (n : Nat) : Nat := ceilDiv n 4096

/-- The test of R441 on a list of (destination, bytes) for partition `part`: a refusal code, or the state with the units
charged. -/
def State.reserve_ (s : State) (part : Nat) (ms : List (Nat × Nat)) : Nat ⊕ State :=
  let me := s.myId
  let need (p : Nat) : Nat := units4k ((ms.filter (fun m => s.routePort me m.1 == p)).foldl (fun n m => n + m.2) 0)
  let limit := min 160 (s.period / 2000)
  let used := (upTo 6).filter (fun p => need p != 0)
  if s.closed then .inl 0x91
  else if !s.isAligned then .inl 0x44
  else if ms.any (fun m => decide (s.hops me m.1 > limit)) then .inl 0x92
  else if used.any (fun p => s.rec_ (portRec p + 8) 0 1 == 1 || decide (s.msg.charged.get 0 (16 * p + part) + need p > s.rec_ (portRec p + 0x40 + 4 * part) 0 32)) then
    .inl 0x91
  else .inr (used.foldl (fun s p =>
    (s.setMsg { s.msg with charged := s.msg.charged.upd 0 (16 * p + part) (· + need p) }).bumpRec (portRec p + 8) 32 32 (need p))
    s)

/-- Counts a refused reserved send on the ports of its messages (REFUSED of R439). -/
def State.countRefused (s : State) (ms : List (Nat × Nat)) : State :=
  let me := s.myId
  ((upTo 6).filter (fun p => ms.any (fun m => s.routePort me m.1 == p))).foldl (fun s p => s.bumpRec (portRec p + 0x10) 0 32 1) s

/-! ### The end of a message for its owner (R444, R445) -/

/-- A request of stage `k` of a running command ends with a status; the command finishes with its last one, with the first
failing status (R444). An XFER stage of a CHAIN has finished its round with the last request of it (R258). -/
def State.cmdDone (s : State) (core id k status : Nat) : State :=
  match s.runOf core id with
  | none => s
  | some r =>
    let r := { r with outstanding := r.outstanding - 1, status := if r.status = 0 then status else r.status }
    let x := r.stage k
    let r' := if !r.isChain then r
      else if x.out ≤ 1 ∧ x.started ∧ Desc.cls (r.desc k) = 6 then (r.setStage k { x with out := 0 }).endRound k
      else r.setStage k { x with out := x.out - 1 }
    let s := s.setRun core r'
    if r.isChain then (if r.status ≠ 0 then s.finish core id r.status else s)
    else if r.outstanding = 0 ∧ r.issuedAll then s.finish core id 0 else s

/-! ### Instances of groups (R326) -/

def State.setGroups (s : State) (g : GroupSt) : State := { s with groups := g }
def State.inst? (s : State) (g i : Nat) : Option InstSt := s.groups.insts.find? (1024 * g + i)
def State.setInst (s : State) (g i : Nat) (x : InstSt) : State :=
  s.setGroups { s.groups with insts := s.groups.insts.put (1024 * g + i) x }

/-- Field of group record `g`. -/
def State.gf (s : State) (g off lo w : Nat) : Nat := s.rec_ (groupRec g + off) lo w
def State.inner (s : State) (g : Nat) : Nat := s.gf g 4 0 12 + 1
def State.outer (s : State) (g : Nat) : Nat := s.gf g 4 12 12 + 1
/-- MODE ALL. -/
def State.modeAll (s : State) (g : Nat) : Bool := s.gf g 0x0C 4 1 == 1

/-- Key of the on-module tree of a reduction. -/
def treeKey (rid : Nat) (module : Bool) : Nat := rid + 65536 * b2n module

/-- An instance ends: it no longer counts in OUTSTANDING, its on-module tree is gone, and every local contributor that has issued
completes with `code` (R328). -/
def State.endInst (s : State) (g i code : Nat) : State :=
  match s.inst? g i with
  | none => s
  | some x =>
    let key := treeKey (g + 64 * i) true
    let cs := x.contribs ++ (match s.reds.find? key with
      | some t => t.cores
      | none => [])
    let s : State := { s with reds := s.reds.drop key }
    let s := s.setGroups { s.groups with insts := s.groups.insts.drop (1024 * g + i) }
    let s := s.setRec (groupRec g + 0x30) 0 11 (s.gf g 0x30 0 11 - 1)
    -- a CAPTURE of a gather instance ends with it (R553)
    let mine (c : Capture) : Bool := x.gath && c.group == g && c.inst == i
    let s := s.shut.foldl (fun s y =>
      let s := { s with shut := s.shut.put y.1 { y.2 with caps := y.2.caps.filter (fun c => !mine c) } }
      (y.2.caps.filter mine).foldl (fun s c => s.finish c.core c.id code) s) s
    cs.foldl (fun s c => s.finish c.1 c.2 code) s

/-- The shards whose results come to this module: its own position's in SCATTER, the whole in ALL, and for a gather every
other position (R324, R453). -/
def State.wanted (s : State) (g : Nat) (x : InstSt) : List Nat :=
  let q := s.gf g 8 0 12
  if x.gath then (upTo (s.inner g)).filter (· != q) else if s.modeAll g then [0] else [q]

/-- Something that the instance waits for has not yet come. -/
def State.instOpen (s : State) (g : Nat) (x : InstSt) : Bool :=
  !x.begun || !x.vals.isEmpty || (s.wanted g x).any (fun k => !x.got.contains k)

/-- An instance with nothing left to wait for ends with its first failing status (R444). -/
def State.settleInst (s : State) (g i : Nat) : State :=
  match s.inst? g i with
  | some x => if !s.instOpen g x && x.sends == 0 then s.endInst g i x.fail else s
  | none => s

/-- A message of an instance ends with a status. -/
def State.instSent (s : State) (g i status : Nat) : State :=
  match s.inst? g i with
  | some x => (s.setInst g i { x with sends := x.sends - 1, fail := if x.fail = 0 then status else x.fail }).settleInst g i
  | none => s

def State.ring (s : State) (r : Nat) : RingSt := s.rings.get {} r
def State.setRing (s : State) (r : Nat) (x : RingSt) : State := { s with rings := s.rings.put r x }

/-- A message ends: its owner learns the status, 0 for DONE. -/
def State.endMsg (s : State) (k status : Nat) : State :=
  match s.msg.out.find? k with
  | none => s
  | some m =>
    let keep := m.prov && status == 0 && (!m.cmds.isEmpty || !m.links.isEmpty)
    let s := s.setMsg { s.msg with out := if keep then s.msg.out.put k { m with done := true } else s.msg.out.drop k }
    let status := if status = 0 ∧ m.poison then 0x96 else status
    match m.owner with
    | .cmd core id k => if m.done then s else s.cmdDone core id k status
    | .ring r hop =>
      if status = 0 ∨ status = 0x96 then s.setRing r { s.ring r with sendDone := max (s.ring r).sendDone (hop + 1) } else s
    | .spill p page =>
      let x := s.pools.get {} p
      if status = 0 ∨ status = 0x96 then { s with pools := s.pools.put p { x with acked := x.acked ++ [page] } } else s
    | .tree g i => if m.done then s else s.instSent g i status
    | .other => s

/-- The number of the outstanding message toward `dest` with tag `mtag`. -/
def State.msgKey (s : State) (dest mtag : Nat) : Option Nat :=
  (List.find? (fun (m : Nat × Msg) => m.2.dest == dest && m.2.mtag == mtag) s.msg.out).map (·.1)

/-- A command or a provisional entry is confirmed or gone: messages that waited for it alone are confirmed (R450, R516). -/
def State.confirmMsgs (s : State) (cmd link : Option Nat) : State :=
  s.msg.out.foldl (fun s x =>
    let m := x.2
    let m' := { m with cmds := m.cmds.filter (fun c => some c != cmd), links := m.links.filter (fun c => some c != link) }
    if !m.prov || (m'.cmds == m.cmds && m'.links == m.links) then s
    else if m'.cmds.isEmpty && m'.links.isEmpty then
      let s := s.tell m.dest 6 0 m.mtag
      s.setMsg { s.msg with out := if m.done then s.msg.out.drop x.1 else s.msg.out.put x.1 { m' with prov := false } }
    else
      let m' := if m.links.isEmpty || !m'.links.isEmpty then m' else { m' with inputs := s.turn.ticks }
      s.setMsg { s.msg with out := s.msg.out.put x.1 m' }) s

/-- The provisional messages that `which` selects are retracted, which ends their senders' waits (R451, R517). -/
def State.retractWhere (s : State) (which : Msg → Bool) : State :=
  s.msg.out.foldl (fun s x =>
    let m := x.2
    if m.prov && which m then
      let s := s.tell m.dest 7 0 m.mtag
      let s := s.setMsg { s.msg with out := s.msg.out.drop x.1 }
      match m.owner with
      | .cmd core id k => if m.done then s else s.cmdDone core id k 0
      | .ring r _ => s.setRing r { s.ring r with resend := true }
      | .tree g i => if m.done then s else s.instSent g i 0
      | _ => s
    else s) s

/-- A message's source failed or was retracted: it is retracted. -/
def State.retractMsgs (s : State) (cmd link : Option Nat) : State :=
  s.retractWhere (fun m => m.cmds.any (fun c => some c == cmd) || m.links.any (fun c => some c == link))

/-- As the tick comes that ends the second turn after a message's last fragment, or after the last confirmation of what it was derived
from, a message that is not confirmed is retracted (R450). -/
def State.retractLate (s : State) : State :=
  s.retractWhere (fun m => m.links.isEmpty && (match m.sentTurn with
    | some t => decide (s.turn.ticks ≥ max t m.inputs + 2)
    | none => false))

end Sys2Proof.Machine
end

