-- ==== Sys2Proof/Machine/Ring.lean ====
section
/-!
DEFINITION. Machine/Ring.lean: the Revolve engine (R279 to R293): arming, the own copy, hops, sends, credit, failures. The
arrival of blocks and credits is in Machine/Receive.lean.
-/
namespace Sys2Proof.Machine

def ringRec (r : Nat) : Nat := 0xF000100000 + 0x80 * r

def State.rf (s : State) (r off lo w : Nat) : Nat := s.rec_ (ringRec r + off) lo w

def State.ringState (s : State) (r : Nat) : Nat := s.rf r 0 0 4
def State.ringPart (s : State) (r : Nat) : Nat := s.rf r 0 12 4
def State.ringHops (s : State) (r : Nat) : Nat := s.rf r 0x30 0 12
def State.ringSize (s : State) (r : Nat) : Nat := s.rf r 4 0 12 + 1
def State.ringEpoch (s : State) (r : Nat) : Nat := s.rf r 0x32 0 16
def State.kBytes (s : State) (r : Nat) : Nat := s.rf r 0x1C 0 32
def State.blockBytes (s : State) (r : Nat) : Nat := 256 + 2 * s.kBytes r
def State.bufAddr (s : State) (r b : Nat) : Nat := s.rf r 0x10 0 48 + b * s.rf r 0x18 0 32
def State.ringLive (s : State) (r : Nat) : Bool := s.ringState r == 1 || s.ringState r == 2

/-- The status word (R281). -/
def State.ringWord (s : State) (r : Nat) : Nat :=
  let x := s.ring r
  let h := s.rf r 0x50 0 12
  let origin := (s.rf r 4 16 12 + s.ringSize r - h % s.ringSize r) % s.ringSize r
  let prov := (x.prov.isSome || x.await) && x.provHop == h
  h + origin * 2 ^ 12 + h % 3 * 2 ^ 24 + b2n prov * 2 ^ 26 + b2n (x.retract && x.provHop == h) * 2 ^ 27 + s.ringState r * 2 ^ 28
    + s.rf r 0 24 4 * 2 ^ 32 + x.lastStart % 2 ^ 24 * 2 ^ 40

def State.ringTell (s : State) (r : Nat) : State := s.writeHbm (some (s.ringPart r)) (s.rf r 0x40 0 48) (toBytes 8 (s.ringWord r))

/-- The sends of a ring stop (R289): its fragments leave the output queues, but for one whose first flits have gone. -/
def State.stopSends (s : State) (r : Nat) : State :=
  let mine (m : Msg) : Bool := match m.owner with
    | .ring q _ => q == r
    | _ => false
  let keys := (s.msg.out.filter (fun x => mine x.2)).map (·.1)
  let gone (f : OutFrag) : Bool := !f.started && (match f.own with
    | some k => keys.contains k
    | none => false)
  let s : State := { s with ports := s.ports.map (fun q =>
    (q.1, { q.2 with outq := q.2.outq.map (fun v => (v.1, v.2.filter (fun f => !gone f))) })) }
  s.setMsg { s.msg with out := s.msg.out.filter (fun x => !mine x.2) }

/-- The pass fails (R289). -/
def State.passFail (s : State) (r cause : Nat) : State :=
  if !s.ringLive r then s
  else
    let a := ringRec r
    let s := ((s.setRec a 0 4 4).setRec a 24 4 cause).setRec (a + 0x60) 0 48 s.turnNo
    let s := s.setRing r { s.ring r with resend := false }
    -- partially arrived blocks are discarded
    let s := s.setMsg { s.msg with ctxs := s.msg.ctxs.filter (fun c => !(c.kind == 3 && c.arg % 16 == r)) }
    ((s.stopSends r).ringTell r).fault 0x0A 2 cause r s.turnNo

/-- A credit for buffer `b` goes to LEFT (R285, R437). -/
def State.ringGrant (s : State) (r b : Nat) : State :=
  s.tell (s.rf r 0x0C 0 20) 0xA (s.ringEpoch r) (r + b * 16 + s.ringEpoch r * 2 ^ 16)

/-- The conditions of R282. -/
def State.ringOk (s : State) (r : Nat) : Bool :=
  let p := s.ringPart r
  let fmtOk (f : Nat) : Bool := decide (2 ≤ f ∧ f ≤ 5)
  decide (s.rf r 0x28 0 48 ≥ s.turnNo + 2) && decide (s.rf r 0 16 8 ≥ 1)
    && s.inPart p (s.rf r 0x10 0 48) (3 * s.rf r 0x18 0 32) && s.inPart p (s.rf r 0x20 0 48) (2 * s.kBytes r)
    && s.inPart p (s.rf r 0x40 0 48) 8 && s.inPart p (s.rf r 0x48 0 48) 8
    && decide (s.blockBytes r ≤ s.rf r 0x18 0 32) && fmtOk (s.rf r 0x34 0 4) && fmtOk (s.rf r 0x34 4 4)

/-- A write of ARM = 1 (R282). -/
def State.armRing (s : State) (r : Nat) : State :=
  let a := ringRec r
  if s.ringLive r then s
  else if s.ringOk r then
    let s := ((s.setRec a 0 4 1).setRec a 24 4 0).setRec (a + 0x50) 0 12 0
    let s := s.setRing r { granted := 2 }
    let s := s.writeHbm (some (s.ringPart r)) (s.rf r 0x48 0 48) (toBytes 8 0)
    (s.ringGrant r 1).ringGrant r 2
  else
    let s := (s.setRec a 0 4 4).setRec a 24 4 1
    let s := s.setRec (a + 0x60) 0 48 s.turnNo
    (s.ringTell r).fault 0x0A 2 1 r s.turnNo

/-- RING_ARM (R282). -/
def execRingArm (w : Writer) (r : Fin 16) (s : State) : Host.Outcome State Fault Refusal :=
  if s.writesFor w (s.ringPart r.val) then .next (s.armRing r.val) else .next s

/-- RING_ABORT (R289). -/
def execRingAbort (w : Writer) (r : Fin 16) (s : State) : Host.Outcome State Fault Refusal :=
  if s.writesFor w (s.ringPart r.val) then .next (s.passFail r.val 6) else .next s

/-! ### Rescaling (R287) -/

/-- A part brought to another exponent: multiplied by 2^d under R78. Whether ZF16 and ZF8-E5 saturate is open. -/
def rescale (sat : Bool) (fmt : Nat) (d : Int) (bs : List Byte) : List Byte × Narrowed :=
  if d = 0 then (bs, {})
  else if fmt = 5 then
    let n := 32 * (bs.length / 17)
    let x := narrowRun { fmt := 5, rnd := 0, sat := true, seed := 0, k := d } 0 (valsOf 5 (bs.drop (n / 2)) (elemsOf 5 n bs))
    (runBytes 5 0 x.els ++ x.zs.map (BitVec.ofNat 8) ++ bs.drop (n / 2 + n / 32), x)
  else
    let x := narrowRun { fmt := fmt, rnd := 0, sat := sat, seed := 0, k := d } 0 (valsOf fmt [] (elemsOf fmt (bs.length * 8 / elemBits fmt) bs))
    (runBytes fmt 0 x.els, x)

/-- Both parts of a block brought from exponents (ek, ev) to the ring's; flags and saturations of both. -/
def State.rescaleBlock (s : State) (r : Nat) (ek ev : Int) (parts : List Byte) : List Byte × Fl × Nat × State :=
  let kb := s.kBytes r
  let sat := s.draw 1 == 1
  let (a, x) := rescale sat (s.rf r 0x34 0 4) (signed 8 (s.rf r 0x34 8 8) - ek) (parts.take kb)
  let (b, y) := rescale sat (s.rf r 0x34 4 4) (signed 8 (s.rf r 0x34 16 8) - ev) (parts.drop kb)
  (a ++ b, x.fl ||| y.fl, x.sats + y.sats, s.drew)

/-- The header of a block for hop `hop` that module `id` at ring position `pos` originated (R280). -/
def State.blockHeader (s : State) (r id pos hop : Nat) : List Byte :=
  toBytes 4 (id % 2 ^ 20 + pos * 2 ^ 20)
    ++ toBytes 4 (r + s.rf r 0x34 0 8 * 16 + s.ringEpoch r * 2 ^ 16)
    ++ toBytes 4 (s.rf r 0x34 8 16 + hop * 2 ^ 16) ++ toBytes 4 (s.kBytes r) ++ List.replicate 240 0

/-- The own copy (R283, R287): flags go to the transfer set of logical core 0. -/
def State.ringOwnCopy (s : State) (r : Nat) : State :=
  let p := s.ringPart r
  let own := s.rf r 0x20 0 48
  let n := 2 * s.kBytes r
  let bad := (s.badIn own n).map (fun x => (x.1 + 256, x.2))
  let m := s.readHbm (some p) own n
  let (bs, f, sats, s) := m.st.rescaleBlock r (signed 8 (s.rf r 0x38 0 8)) (signed 8 (s.rf r 0x38 8 8)) m.bytes
  let s := s.writeBad (some p) (s.bufAddr r 0) (s.blockHeader r s.myId (s.rf r 4 16 12) 0 ++ bs) bad
  let s := (s.bumpRec (ringRec r + 0x5C) 0 32 sats).postFlags 0 2 f
  s.setRing r { s.ring r with own := true }

/-! ### Sends and credit (R285) -/

/-- Sends the block of the next hop that has started, once its credit and its room are there (R285, R293, R441). -/
def State.ringSend (s : State) (r : Nat) : State :=
  let x := s.ring r
  let h := x.sent
  let right := s.rf r 8 0 20
  let part := s.ringPart r
  let b := (h + 1) % 3
  let provWait := h != 0 && (x.prov.isSome || x.await) && x.provHop == h
  if s.ringState r ≠ 2 ∨ h ≥ x.started ∨ h ≥ s.ringHops r ∨ !x.credit.contains b ∨ provWait then s
  else
    let n := s.blockBytes r
    match s.reserve_ part [(right, n)] with
    | .inl 0x44 => s.passFail r 4
    | .inl _ => s
    | .inr s =>
      let a := s.bufAddr r (h % 3)
      let m := s.readHbm (some part) a n
      let s := m.st
      let id := ofBytes (m.bytes.take 4) % 2 ^ 20
      let pos := ofBytes (m.bytes.take 4) / 2 ^ 20
      let data := s.blockHeader r id pos (h + 1) ++ m.bytes.drop 256
      let own := s.rf r 0x20 0 48
      let deps := if h = 0 then [(own, 2 * s.kBytes r)] else []
      -- ADDR of a Revolve fragment is open: the receiver places blocks in its own buffers
      let (ok, s) := (s.drew).sendFrom
        { dest := right, kind := 3, vc := 1, res := true, epoch := s.ringEpoch r, addr := (s.draw 48).toNat, owner := .ring r h, bad := s.badIn a n } deps data
      if ok then
        s.setRing r { x with sent := h + 1, credit := x.credit.filter (· != b), progress := true }
      else s.passFail r 2

/-- Hops whose buffer has been finished with, by the done word and by sends, let LEFT send the block three hops on. -/
def State.ringRelease (s : State) (r : Nat) : State :=
  let x := s.ring r
  let doneHops := s.peekN (s.rf r 0x48 0 48) 8
  let u := x.granted - 2
  let sentOk := decide (u ≥ s.ringHops r) || decide (x.sendDone ≥ u + 1)
  if s.ringState r = 2 ∧ x.granted + 1 ≤ s.ringHops r ∧ doneHops ≥ u + 1 ∧ sentOk then
    (s.ringGrant r ((x.granted + 1) % 3)).setRing r { x with granted := x.granted + 1 }
  else s

/-- HOP_START (R284, R288): the hop that the last tick let start. What has come since then lets it start at the next tick. -/
def execHopStart (r : Fin 16) (s : State) : Host.Outcome State Fault Refusal :=
  let r := r.val
  let x := s.ring r
  let h := x.started
  let n := s.turnNo
  let tph := s.rf r 0 8 4 + 1
  let start := s.rf r 0x28 0 48
  let ready := if h = 0 then x.tickOwn && decide (n ≥ start)
    else decide (h ≤ s.ringHops r) && decide (x.tickArrived ≥ h) && decide (x.tickDone ≥ h - 1)
      && decide (n ≥ x.lastStart + tph)
  if s.ringState r = 2 ∧ ready then
    let s := s.setRec (ringRec r + 0x50) 0 12 h
    let s := if n > start + h * tph then s.bumpRec (ringRec r + 0x54) 0 32 1 else s
    let s := s.setRing r { x with started := h + 1, lastStart := n }
    .next ((s.ringTell r).ringSend r)
  else .next s

/-- RING_STALL (R289): no arrival and no credit for STALL turns. -/
def execRingStall (r : Fin 16) (s : State) : Host.Outcome State Fault Refusal :=
  if s.ringLive r.val ∧ (s.ring r.val).stall ≥ s.rf r.val 0 16 8 then .next (s.passFail r.val 3) else .next s

/-- The replacement of a retracted own block, once what wrote OWN has been replayed (R293): it goes to the same buffer, also where
the pass is DONE, on reserved room as the block that it replaces (R441). -/
def State.ringResend (s : State) (r : Nat) : State :=
  let own := s.rf r 0x20 0 48
  let n := 2 * s.kBytes r
  let redoing := s.sill.spares.any (fun x => !x.2.queue.isEmpty || (match x.2.work with
    | .replay _ _ => true
    | _ => false))
  let send (s : State) : State :=
    let bad := (s.badIn own n).map (fun x => (x.1 + 256, x.2))
    let m := s.readHbm (some (s.ringPart r)) own n
    let (bs, f, sats, s) := m.st.rescaleBlock r (signed 8 (s.rf r 0x38 0 8)) (signed 8 (s.rf r 0x38 8 8)) m.bytes
    let s := (s.bumpRec (ringRec r + 0x5C) 0 32 sats).postFlags 0 2 f
    let (ok, s) := (s.drew).sendFrom
      { dest := s.rf r 8 0 20, kind := 3, vc := 1, res := true, epoch := s.ringEpoch r, addr := (s.draw 48).toNat, owner := .ring r 0, bad := bad }
      [(own, n)] (s.blockHeader r s.myId (s.rf r 4 16 12) 1 ++ bs)
    if ok then s.setRing r { s.ring r with resend := false } else s.passFail r 2
  if !(s.ring r).resend || redoing then s
  else match s.reserve_ (s.ringPart r) [(s.rf r 8 0 20, s.blockBytes r)] with
    | .inl 0x44 => s.passFail r 4
    | .inl _ => s
    | .inr s => send s

/-- What a tick does to one ring (R283, R286, R289, R441). -/
def State.ringTick1 (s : State) (r : Nat) : State :=
  if !s.ringLive r then s
  else
    let n := s.turnNo
    let x := s.ring r
    let done := s.peekN (s.rf r 0x48 0 48) 8
    let s := s.setRing r { x with
      stall := if x.progress then 0 else x.stall + 1, progress := false, tickOwn := x.own, tickArrived := x.arrived, tickDone := done }
    let start := s.rf r 0x28 0 48
    let s := if n + 1 = start ∧ !x.own then s.ringOwnCopy r else s
    let s := if s.ringState r = 1 ∧ n ≥ start then s.setRec (ringRec r) 0 4 2 else s
    if s.ringState r = 2 ∧ done = s.ringHops r + 1 then
      (s.setRec (ringRec r) 0 4 3).ringTell r
    else ((s.ringRelease r).ringRelease r).ringSend r

def State.ringTick (s : State) : State := (upTo 16).foldl (fun s r => (s.ringTick1 r).ringResend r) s

/-- A link went down: passes toward LEFT or RIGHT through the port fail (R289). -/
def State.ringLinkDown (s : State) (p : Nat) : State :=
  (upTo 16).foldl (fun s r =>
    if s.ringLive r && (s.routePort s.myId (s.rf r 8 0 20) == p || s.routePort s.myId (s.rf r 0x0C 0 20) == p) then s.passFail r 2
    else s) s

end Sys2Proof.Machine
end

