-- ==== Sys2Proof/Machine/Pages.lean ====
section
/-!
DEFINITION. Machine/Pages.lean: the page engine (R295 to R317): pools, page states, the prefix tree, requests, spill and
return.
-/
namespace Sys2Proof.Machine

def poolRec (p : Nat) : Nat := 0xF000110000 + 0x100 * p
def State.pf (s : State) (p off lo w : Nat) : Nat := s.rec_ (poolRec p + off) lo w
def State.pool (s : State) (p : Nat) : PoolSt := s.pools.get {} p
def State.setPool (s : State) (p : Nat) (x : PoolSt) : State := { s with pools := s.pools.put p x }

def State.poolOn (s : State) (p : Nat) : Bool := s.pf p 0 0 1 == 1
def State.kvh (s : State) (p : Nat) : Nat := s.pf p 4 8 8 + 1
def State.lh (s : State) (p : Nat) : Nat := (s.pf p 4 0 8 + 1) * s.kvh p
def State.gmax (s : State) (p : Nat) : Nat := s.pf p 8 0 16
def State.frameBytes (s : State) (p : Nat) : Nat := s.pf p 0x0C 0 32

/-- Bytes of a page (R295). -/
def State.pageBytes (s : State) (p : Nat) : Nat :=
  let dim := s.pf p 4 16 8 + 1
  attbBytes (s.pf p 0 8 4) 4096 dim + attbBytes (s.pf p 0 12 4) 4096 dim

/-- Writes a field of a 64-bit word of HBM for partition `p`, the other bits unchanged. -/
def State.setHbm (s : State) (p a lo w v : Nat) : State :=
  s.writeHbm (some p) a (toBytes 8 (setBits (BitVec.ofNat 64 (s.peekN a 8)) lo w v).toNat)

/-! ### Page descriptors (R300) -/

def State.pd (s : State) (p k : Nat) : Nat := s.pf p 0x20 0 48 + 32 * k
def State.pageState (s : State) (p k : Nat) : Nat := s.rec_ (s.pd p k) 0 3
def State.pageTier (s : State) (p k : Nat) : Nat := s.rec_ (s.pd p k) 5 2
def State.pageRefs (s : State) (p k : Nat) : Nat := s.rec_ (s.pd p k) 32 32
def State.setPd (s : State) (p k off lo w v : Nat) : State := s.setHbm p (s.pd p k + off) lo w v
def State.setPageState (s : State) (p k st : Nat) : State := s.setPd p k 0 0 3 st

/-- An arbitrary member of a list: which one is open. -/
def State.pick (s : State) (l : List Nat) : Nat := l.getD ((s.draw 32).toNat % l.length) 0

/-- A free local frame is taken (FREE of R298). -/
def State.takeFrame (s : State) (p : Nat) : Nat × State :=
  let x := s.pool p
  let f := s.pick ((upTo (s.pf p 0x18 0 32)).filter (fun i => !x.lused.contains i))
  (f, (s.drew.setPool p { x with lused := f :: x.lused }).setRec (poolRec p + 0xB0) 0 32 (s.pf p 0xB0 0 32 - 1))

def State.freeFrame (s : State) (p f : Nat) : State :=
  let x := s.pool p
  (s.setPool p { x with lused := x.lused.filter (· != f) }).bumpRec (poolRec p + 0xB0) 0 32 1

/-- Frames of a tier, and the register that counts those in use. -/
def State.tierFrames (s : State) (p t : Nat) : Nat :=
  if t = 3 then (if s.pf p 0x90 0 1 = 1 then s.pf p 0x94 0 32 else 0)
  else if t = 0 then 0
  else if s.pf p (0x70 + 0x10 * (t - 1)) 23 1 = 1 then s.pf p (0x74 + 0x10 * (t - 1)) 0 32 else 0

def tierReg (t : Nat) : Nat := if t = 3 then 0xB8 else 0xB4

def State.takeTier (s : State) (p t : Nat) : Nat × State :=
  let x := s.pool p
  let used := x.tused.get [] t
  let f := s.pick ((upTo (s.tierFrames p t)).filter (fun i => !used.contains i))
  (f, (s.drew.setPool p { x with tused := x.tused.put t (f :: used) }).bumpRec (poolRec p + tierReg t) 0 32 1)

def State.freeTier (s : State) (p t f : Nat) : State :=
  let x := s.pool p
  let s := s.setPool p { x with tused := x.tused.put t ((x.tused.get [] t).filter (· != f)) }
  s.setRec (poolRec p + tierReg t) 0 32 (s.pf p (tierReg t) 0 32 - 1)

/-- Address of a page's local frame. -/
def State.frameAddr (s : State) (p f : Nat) : Nat := s.pf p 0x10 0 48 + f * s.frameBytes p

/-- A page becomes FREE (R303): the frames that it holds are freed. -/
def State.freePage (s : State) (p k : Nat) : State :=
  let st := s.pageState p k
  let s := if st = 1 ∨ st = 2 ∨ st = 3 ∨ st = 5 then s.freeFrame p (s.rec_ (s.pd p k + 8) 0 32) else s
  let s := if st = 3 ∨ st = 4 ∨ st = 5 ∨ st = 6 then s.freeTier p (s.pageTier p k) (s.rec_ (s.pd p k + 0x0C) 0 32) else s
  let x := s.pool p
  let s := s.setPool p { x with
    pages := x.pages.filter (· != k), returns := x.returns.filter (fun r => r.page != k), acked := x.acked.filter (· != k)
    landed := x.landed.filter (· != k) }
  (s.setPageState p k 0).setPd p k 0 3 4 0

/-- Adds to or takes from REFS; at 0 a page becomes FREE, unless a copy in flight must finish first (R303). -/
def State.addRef (s : State) (p k : Nat) : State := s.setPd p k 0 32 32 (s.pageRefs p k + 1)
def State.dropRef (s : State) (p k : Nat) : State :=
  let n := s.pageRefs p k - 1
  let s := s.setPd p k 0 32 32 n
  let st := s.pageState p k
  if n = 0 ∧ st ≠ 3 ∧ st ≠ 5 ∧ st ≠ 0 then s.freePage p k else s

/-! ### Page maps (R296) -/

def State.seqActive (s : State) (i p : Nat) : Bool := s.sf i 0 0 3 == 1 && s.sf i 0 4 4 == p

def noPage : Nat := 0xFFFFFFFF

/-- Addresses of the entries of granule g in a page map. -/
def State.groupEntries (s : State) (p i g : Nat) : List Nat :=
  (upTo (s.lh p)).map (fun e => s.sf i 0x10 0 48 + 4 * (g * s.lh p + e))

/-- Pages that sequence `i` maps for granule g. -/
def State.groupPages (s : State) (p i g : Nat) : List Nat := ((s.groupEntries p i g).map (fun a => s.peekN a 4)).filter (· != noPage)

/-- All pages of a sequence. -/
def State.seqPages (s : State) (p i : Nat) : List Nat := (upTo (s.gmax p + 1)).flatMap (s.groupPages p i)

/-- A FREE page is mapped at entry `e` of a granule: OPEN (R301, R302). -/
def State.mapPage (s : State) (p i g e : Nat) : State :=
  let x := s.pool p
  let k := s.pick ((upTo (s.pf p 0x1C 0 32)).filter (fun k => !x.pages.contains k))
  let (f, s) := s.drew.takeFrame p
  let s := s.setPool p { s.pool p with pages := k :: (s.pool p).pages }
  let s := s.setHbm p (s.pd p k) 0 32 (1 + e / s.kvh p * 2 ^ 8 + e % s.kvh p * 2 ^ 16)
  let s := s.setPd p k 0 32 32 1
  let s := s.setHbm p (s.pd p k + 8) 0 32 f
  let s := s.setHbm p (s.pd p k + 0x10) 0 48 s.turnNo
  s.writeHbm (some p) (s.sf i 0x10 0 48 + 4 * (g * s.lh p + e)) (toBytes 4 k)

/-- Maps the group of granule g of a sequence, where pages and frames are free (R302). -/
def State.mapGroup (s : State) (p i g : Nat) : State :=
  (upTo (s.lh p)).foldl (fun s e =>
    if s.peekN (s.sf i 0x10 0 48 + 4 * (g * s.lh p + e)) 4 = noPage ∧ s.pf p 0xB0 0 32 ≠ 0 ∧ (s.pool p).pages.length < s.pf p 0x1C 0 32 then
      s.mapPage p i g e else s) s

/-- OPEN pages of a granule enter FULL (R302). -/
def State.fullGroup (s : State) (p i g : Nat) : State :=
  let x := s.pool p
  let s := s.setPool p { x with closers := x.closers.drop (65536 * i + g) }
  (s.groupPages p i g).foldl (fun s k => if s.pageState p k = 1 then s.setPageState p k 2 else s) s

/-- Drops the listed bytes of a range: they read 0. -/
def State.zeroRange (s : State) (a n : Nat) : State := { s with mem := s.mem.filter (fun c => !decide (a ≤ c.1 ∧ c.1 < a + n)) }

/-! ### Enabling (R299) -/

/-- The conditions of R299. -/
def State.poolOk (s : State) (p : Nat) : Bool :=
  let fmtOk (f : Nat) : Bool := decide (2 ≤ f ∧ f ≤ 5)
  let low := s.pf p 0x28 0 32
  let high := s.pf p 0x2C 0 32
  let nodes := 8 * s.pf p 0x38 0 32
  fmtOk (s.pf p 0 8 4) && fmtOk (s.pf p 0 12 4) && decide (s.frameBytes p ≥ s.pageBytes p)
    && decide (s.lh p ≤ low ∧ low < high ∧ high ≤ s.pf p 0x18 0 32) && decide (s.pf p 0x60 0 16 ≥ 63)
    && s.inPart p (s.pf p 0x10 0 48) (s.pf p 0x18 0 32 * s.frameBytes p) && s.inPart p (s.pf p 0x20 0 48) (32 * s.pf p 0x1C 0 32)
    && s.inPart p (s.pf p 0x30 0 48) (64 * nodes) && s.inPart p (s.pf p 0x48 0 48) (16384 * nodes)
    && s.inPart p (s.pf p 0x50 0 48) (4 * s.lh p * nodes) && s.inPart p (s.pf p 0x58 0 48) (32 * (s.pf p 0x60 0 16 + 1))
    && s.inPart p (s.pf p 0x68 0 48) 4

/-- Every page descriptor FREE, every node invalid; counts of frames start anew. -/
def State.poolStart (s : State) (p : Nat) : State :=
  let tb := s.pf p 0x30 0 48
  let nodes := 8 * s.pf p 0x38 0 32
  let s := s.zeroRange (s.pf p 0x20 0 48) (32 * s.pf p 0x1C 0 32)
  let s : State := { s with mem := s.mem.filter (fun c => !(decide (tb ≤ c.1 ∧ c.1 < tb + 64 * nodes) && (c.1 - tb) % 64 == 14)) }
  let a := poolRec p
  let s := ((s.setRec (a + 0xB0) 0 32 (s.pf p 0x18 0 32)).setRec (a + 0xB0) 32 32 0).setRec (a + 0xB8) 0 32 0
  (((s.setRec a 0 1 1).setRec a 2 1 0).setRec (a + 0x64) 0 32 0).setPool p {}

/-- Reads the tail word (R309). -/
def State.readTail (s : State) (p : Nat) : State :=
  if s.poolOn p then s.setPool p { s.pool p with tail := s.peekN (s.pf p 0x68 0 48) 4 % (s.pf p 0x60 0 16 + 1) } else s

/-! ### Requests (R309 to R311) -/

/-- Address of the request that the engine takes next, if one waits. -/
def State.request (s : State) (p : Nat) : Option Nat :=
  let h := s.pf p 0x64 0 32
  if s.poolOn p ∧ h ≠ (s.pool p).tail then some (s.pf p 0x58 0 48 + 32 * h) else none

/-- Ends the request at `a`: its STATUS, and the next entry is the head. -/
def State.endRequest (s : State) (p a st : Nat) : State :=
  let s := s.writeHbm (some p) (a + 1) (toBytes 1 st)
  s.setRec (poolRec p + 0x64) 0 32 ((s.pf p 0x64 0 32 + 1) % (s.pf p 0x60 0 16 + 1))

/-- A request with a reserved OP or a reserved field that is not 0 (R309, R311). -/
def State.reqReserved (s : State) (a : Nat) : Bool :=
  decide (s.rec_ a 0 8 = 0 ∨ s.rec_ a 0 8 > 8) || s.rec_ a 16 16 != 0 || s.rec_ (a + 4) 18 14 != 0 || s.rec_ (a + 0x18) 48 16 != 0

/-- Such requests are refused as the engine reaches them. `fuel` bounds their number. -/
def State.skipBad (s : State) (p : Nat) : Nat → State
  | 0 => s
  | fuel + 1 =>
    match s.request p with
    | some a => if s.reqReserved a then (s.endRequest p a 0xC8).skipBad p fuel else s
    | none => s

/-- Carries out a request with OP `op` at the head of pool `p`'s ring: its status, and the state
that it leaves (R311: unchanged where it failed, but for a collision's count). -/
def State.serveRequest (s : State) (p op : Nat) (f : Nat → State → Nat × State) : State :=
  let s := s.skipBad p 65536
  match s.request p with
  | some a =>
    if s.rec_ a 0 8 = op then
      let (st, s') := f a s
      (s'.endRequest p a st).skipBad p 65536
    else s
  | none => s

/-- A write of word 0 of a pool record (R298, R299, R309). -/
def State.writePool0 (s : State) (p : Nat) (v : Word) : State :=
  let a := poolRec p
  let was := s.poolOn p
  let s := s.setRec a 8 24 (bits v 8 24)
  let s :=
    if bit v 0 && !was then (if s.poolOk p then s.poolStart p else s.setRec a 2 1 1)
    else if was && !bit v 0 then s.setRec a 0 1 0 else s
  if bit v 1 then (s.readTail p).skipBad p 65536 else s

/-- POOL_ENABLE (R299). -/
def execPoolEnable (w : Writer) (p : Fin 16) (v : Word) (s : State) : Host.Outcome State Fault Refusal :=
  if s.writesFor w p.val then .next (s.writePool0 p.val (v ||| 1)) else .next s

/-- KICK (R309). -/
def execKick (w : Writer) (p : Fin 16) (s : State) : Host.Outcome State Fault Refusal :=
  if s.writesFor w p.val then .next ((s.readTail p.val).skipBad p.val 65536) else .next s

/-! ### Copies to and from a tier (R301, R316) -/

/-- A SPILLING page is named again: FULL, and the tier copy is discarded (R301); the end of its message no longer counts. -/
def State.unspill (s : State) (p k : Nat) : State :=
  if s.pageState p k ≠ 3 then s
  else
    let s := s.freeTier p (s.pageTier p k) (s.rec_ (s.pd p k + 0x0C) 0 32)
    let x := s.pool p
    let s := s.setMsg { s.msg with
      out := s.msg.out.map (fun m => (m.1, if m.2.owner = .spill p k then { m.2 with owner := .other } else m.2)) }
    ((s.setPool p { x with acked := x.acked.filter (· != k) }).setPageState p k 2).setPd p k 0 5 2 0

/-- Starts the copy of a page back from its tier (R301): a READ to the lender, or a read of host memory. -/
def State.startReturn (s : State) (p k : Nat) : State :=
  let t := s.pageTier p k
  let rf := s.rec_ (s.pd p k + 0x0C) 0 32
  let (f, s) := s.takeFrame p
  let s := (s.setPageState p k 5).setHbm p (s.pd p k + 8) 0 32 f
  let lo := s.frameAddr p f
  let n := s.pageBytes p
  if t = 3 then
    let port := s.pf p 0x90 1 1
    let id := s.host.nextRead
    let a := s.pf p 0x98 0 64 + rf * s.frameBytes p
    (s.setHost { s.host with
      reads := s.host.reads.put id { port := port, addr := a, len := n, use := .pageReturn p k }, nextRead := id + 1 }).emit
      (.hostRead port id a n)
  else
    let l := 0x70 + 0x10 * (t - 1)
    let dest := s.pf p l 0 20
    let key := s.msg.next
    let (ok, s) := s.send { dest := dest, kind := 11, vc := 2, addr := s.pf p (l + 8) 0 48 + rf * s.frameBytes p, arg := lo, readLen := some n } []
    if ok then s.setMsg { s.msg with reads := s.msg.reads.put (key % 65536) { pool := p, page := k, dest := dest, lo := lo, n := n } } else s

/-- Starts return `r` where its page still waits for it and a local frame is free (R301, R313). -/
def State.beginReturn (s : State) (p : Nat) (r : KvReturn) : State :=
  if s.pageState p r.page ≠ 4 ∨ s.pf p 0xB0 0 32 = 0 then s
  else
    let x := s.pool p
    (s.setPool p { x with returns := x.returns.map (fun y => if y.page = r.page then { y with started := true } else y) }).startReturn
      p r.page

/-- The returns that held steps want at once start as far as frames are free, ahead of all others (R316). -/
def State.serveWaiting (s : State) (p : Nat) : State :=
  ((s.pool p).returns.filter (fun r => r.target == 0 && !r.started)).foldl (fun s r => s.beginReturn p r) s

/-! ### The prefix tree (R304 to R308) -/

/-- run_hash (R304). -/
def runHash (parent : Nat) (toks : List Nat) : Nat :=
  toks.foldl (fun h t =>
    let h := (h ^^^ t) * 0x100000001B3 % 2 ^ 64
    h ^^^ (h / 2 ^ 29)) (parent ^^^ 0x243F6A8885A308D3)

def State.nodeAddr (s : State) (p i : Nat) : Nat := s.pf p 0x30 0 48 + 64 * i
def State.nf (s : State) (p i off lo w : Nat) : Nat := s.rec_ (s.nodeAddr p i + off) lo w
def State.nodeValid (s : State) (p i : Nat) : Bool := s.nf p i 0x0C 16 1 == 1
def State.tokens (s : State) (a : Nat) : List Nat := (upTo 4096).map (fun i => s.peekN (a + 4 * i) 4)
def State.nodeToks (s : State) (p i : Nat) : List Nat := s.tokens (s.pf p 0x48 0 48 + 16384 * i)

/-- How a lookup of one granule ends: a hit, a miss or a collision. -/
inductive Find where
  | hit (i : Nat)
  | miss
  | collision
  deriving DecidableEq, Repr

/-- The bucket of hash h (R307). -/
def State.bucketOf (s : State) (p h : Nat) : Nat := h &&& (s.pf p 0x38 0 32 - 1)

/-- The search of R307 for granule g with hash h under parent node `par`. -/
def State.findNode (s : State) (p h par g : Nat) (toks : List Nat) : Find :=
  let b := s.bucketOf p h
  match ((upTo 8).map (8 * b + ·)).find? (fun i =>
    s.nodeValid p i && s.nf p i 0 0 64 == h && s.nf p i 8 0 32 == par && s.nf p i 0x0C 0 16 == g) with
  | some i => if s.nodeToks p i = toks then .hit i else .collision
  | none => .miss

/-- Walks `n` granules from g on (R307): the nodes hit, in order, whether it ended in a collision, and the hash of the
deepest hit. -/
def State.walk (s : State) (p base : Nat) : Nat → Nat → Nat → Nat → List Nat × Bool × Nat
  | 0, _, h, _ => ([], false, h)
  | n + 1, g, h, par =>
    let toks := s.tokens (base + 16384 * g)
    let h' := runHash h toks
    match s.findNode p h' par g toks with
    | .hit i =>
      let r := s.walk p base n (g + 1) h' i
      (i :: r.1, r.2)
    | .miss => ([], false, h)
    | .collision => ([], true, h)

/-- A lookup of `count` tokens at `base`. -/
def State.lookupTree (s : State) (p base count : Nat) : List Nat × Bool × Nat :=
  s.walk p base (min (count / 4096) (s.gmax p + 1)) 0 (s.pf p 0x40 0 64) noPage

def State.setNf (s : State) (p i off lo w v : Nat) : State := s.setHbm p (s.nodeAddr p i + off) lo w v

/-- A lookup's hits are used in this turn, and a collision counts (R306, R307). -/
def State.touchNodes (s : State) (p : Nat) (hits : List Nat) (coll : Bool) : State :=
  let s := hits.foldl (fun s i => s.setNf p i 0x18 0 48 s.turnNo) s
  if coll then s.bumpRec (poolRec p + 0xC0) 0 32 1 else s

/-- Results of LOOKUP and ATTACH. -/
def State.lookupResult (s : State) (p a : Nat) (hits : List Nat) : State :=
  let s := s.writeHbm (some p) (a + 8) (toBytes 8 (hits.getLastD noPage))
  s.writeHbm (some p) (a + 0x10) (toBytes 8 hits.length)

/-- Whether a token array lies in the partition. -/
def State.tokensOk (s : State) (p a n : Nat) : Bool := s.inPart p a (4 * n) && a % 4 == 0

/-- LOOKUP (R307). -/
def execLookup (p : Fin 16) (s : State) : Host.Outcome State Fault Refusal :=
  let p := p.val
  .next (s.serveRequest p 1 (fun a s =>
    let base := s.rec_ (a + 8) 0 64
    let n := s.rec_ (a + 0x10) 0 64
    if !s.tokensOk p base n then (0xC8, s)
    else
      let (hits, coll, _) := s.lookupTree p base n
      (0, (s.touchNodes p hits coll).lookupResult p a hits)))

/-- Pages of a node's group. -/
def State.nodePages (s : State) (p i : Nat) : List Nat :=
  (upTo (s.lh p)).map (fun e => s.peekN (s.pf p 0x50 0 48 + 4 * s.lh p * i + 4 * e) 4)

/-- ATTACH (R310). -/
def execAttach (p : Fin 16) (s : State) : Host.Outcome State Fault Refusal :=
  let p := p.val
  .next (s.serveRequest p 2 (fun a s =>
    let base := s.rec_ (a + 8) 0 64
    let n := s.rec_ (a + 0x10) 0 64
    let i := s.rec_ a 32 18
    if !s.tokensOk p base n then (0xC8, s)
    else if !s.seqActive i p then (0xC9, s)
    else
      let (hits, coll, _) := s.lookupTree p base n
      if (upTo hits.length).any (fun g => !(s.groupPages p i g).isEmpty) then (0xC8, s)
      else if hits.any (fun h => (s.nodePages p h).any (fun k => s.pageState p k == 6)) then (0xC6, s)
      else
        let s := s.touchNodes p hits coll
        let s := hits.zipIdx.foldl (fun s h =>
          let s := ((s.nodePages p h.1).zip (s.groupEntries p i h.2)).foldl
            (fun s x => (s.writeHbm (some p) x.2 (toBytes 4 x.1)).addRef p x.1) s
          s.setNf p h.1 0x10 0 32 (s.nf p h.1 0x10 0 32 + 1)) s
        let x := s.pool p
        (0, (s.setPool p { x with attached := x.attached.upd [] i (· ++ hits) }).lookupResult p a hits)))

/-- A node becomes invalid, with its pages' TREE and the counts it added (R308). -/
def State.dropNode (s : State) (p i : Nat) : State :=
  let par := s.nf p i 8 0 32
  let s := if par ≠ noPage then s.setNf p par 0x14 0 32 (s.nf p par 0x14 0 32 - 1) else s
  let s := (s.nodePages p i).foldl (fun s k => (s.setPd p k 0 4 1 0).dropRef p k) s
  s.setNf p i 0x0C 16 1 0

/-- The way that an insertion under parent node `par` takes (R308): the lowest invalid one, else the leaf used longest ago. The
parent, which the new node names, is none (DEDUCED, notes/assumptions/64.md). -/
def State.wayFor (s : State) (p h par : Nat) : Option Nat :=
  let ways := (upTo 8).map (8 * s.bucketOf p h + ·)
  match ways.find? (fun i => !s.nodeValid p i) with
  | some i => some i
  | none =>
    let leaves := ways.filter (fun i => i != par && s.nf p i 0x10 0 32 == 0 && s.nf p i 0x14 0 32 == 0)
    leaves.foldl (fun b i => match b with
      | none => some i
      | some j => if s.nf p i 0x18 0 48 < s.nf p j 0x18 0 48 then some i else some j) none

/-- INSERT (R308). -/
def execInsert (p : Fin 16) (s : State) : Host.Outcome State Fault Refusal :=
  let p := p.val
  .next (s.serveRequest p 3 (fun a s =>
    let base := s.rec_ (a + 8) 0 64
    let g := s.rec_ (a + 0x10) 0 64
    let i := s.rec_ a 32 18
    if g > s.gmax p ∨ !s.tokensOk p base (4096 * (g + 1)) then (0xC8, s)
    else if !s.seqActive i p then (0xC9, s)
    else
      let pages := s.groupPages p i g
      if pages.any (fun k => s.pageState p k == 6) then (0xC6, s)
      else if pages.length ≠ s.lh p ∨ pages.any (fun k => s.pageState p k != 2) then (0xC4, s)
      else
        let (hits, coll, h) := s.lookupTree p base (4096 * (g + 1))
        if hits.length < g then (0xC5, s.touchNodes p [] coll)
        else if hits.length > g then (0xC2, s)
        else if coll then (0xC1, s.touchNodes p [] true)
        else
          let toks := s.tokens (base + 16384 * g)
          let h' := runHash h toks
          let par := hits.getLastD noPage
          let t := s.touchNodes p hits false
          match t.wayFor p h' par with
          | none => (0xC3, s)
          | some n =>
            let s := if t.nodeValid p n then (t.dropNode p n).bumpRec (poolRec p + 0xC8) 0 32 1 else t
            let s := s.writeHbm (some p) (s.nodeAddr p n) (toBytes 8 h' ++ toBytes 4 par ++ toBytes 4 (g + 2 ^ 16) ++ toBytes 8 0 ++ toBytes 8 s.turnNo)
            let s := s.writeHbm (some p) (s.pf p 0x48 0 48 + 16384 * n) (toks.flatMap (toBytes 4))
            let s := s.writeHbm (some p) (s.pf p 0x50 0 48 + 4 * s.lh p * n) (pages.flatMap (toBytes 4))
            let s := pages.foldl (fun s k => (s.setPd p k 0 4 1 1).addRef p k) s
            let s := if par ≠ noPage then s.setNf p par 0x14 0 32 (s.nf p par 0x14 0 32 + 1) else s
            (0, (s.serveWaiting p).writeHbm (some p) (a + 8) (toBytes 8 n))))

/-- RELEASE (R310). -/
def execRelease (p : Fin 16) (s : State) : Host.Outcome State Fault Refusal :=
  let p := p.val
  .next (s.serveRequest p 4 (fun a s =>
    let i := s.rec_ a 32 18
    if !s.seqActive i p then (0xC9, s)
    else
      let s := (upTo (s.gmax p + 1)).foldl (fun s g =>
        (s.groupEntries p i g).foldl (fun s e =>
          let k := s.peekN e 4
          if k = noPage then s else (s.writeHbm (some p) e (toBytes 4 noPage)).dropRef p k) s) s
      let x := s.pool p
      let s := (x.attached.get [] i).foldl (fun s n => s.setNf p n 0x10 0 32 (s.nf p n 0x10 0 32 - 1)) s
      let x := s.pool p
      let s := s.setPool p { x with attached := x.attached.drop i, closers := x.closers.filter (fun c => c.1 / 65536 != i) }
      (0, s.serveWaiting p)))

/-! ### Spill and return (R312 to R316) -/

/-- Starts admitted returns while the turn's budgets last, in ascending target and request order (R313). -/
def State.serveReturns (s : State) (p : Nat) : State :=
  let s := s.serveWaiting p
  let rs := (s.pool p).returns.filter (fun r => r.target != 0)
  let sorted := rs.mergeSort (fun a b => decide (a.target ≤ b.target))
  sorted.foldl (fun s r =>
    let x := s.pool p
    if r.started || s.pageState p r.page != 4 || s.pf p 0xB0 0 32 == 0 || decide (x.budget.get 0 r.tier < s.frameBytes p) then s
    else
      (s.setPool p { x with budget := x.budget.put r.tier (x.budget.get 0 r.tier - s.frameBytes p) }).beginReturn p r) s

/-- Budget of a tier in bytes per turn. -/
def State.tierBudget (s : State) (p t : Nat) : Nat := 4096 * (if t = 3 then s.pf p 0xA4 0 32 else s.pf p 0xA0 0 32)

/-- The admission of R313 for pages `ks` by turn `t`, beside the returns `rs`. -/
def State.returnsFit (s : State) (p t : Nat) (rs : List KvReturn) (ks : List Nat) : Bool :=
  let n := s.turnNo
  let fb := s.frameBytes p
  let tierOk (k : Nat) : Bool :=
    let b := fb * (ks.filter (fun x => s.pageTier p x == k)).length
    b == 0 || (t :: ((rs.filter (fun r => r.tier == k && decide (r.target ≥ t))).map (·.target))).all (fun t' =>
      decide (fb * (rs.filter (fun r => r.tier == k && decide (r.target ≤ t'))).length + b ≤ s.tierBudget p k * (t' - n - 1)))
  [1, 2, 3].all tierOk && decide (ks.length + (rs.filter (fun r => !r.started)).length ≤ s.pf p 0xB0 0 32)

/-- Admits the return of SPILLED pages by turn `t`, and takes back SPILLING ones: false when it does not fit. A page that an
earlier return brings by then stays with it; one that it brings later is brought forward. -/
def State.admitReturns (s : State) (p t : Nat) (ks : List Nat) : Bool × State :=
  let late (r : KvReturn) : Bool := ks.contains r.page && decide (t < r.target) && !r.started
  let rs := (s.pool p).returns.filter (fun r => !late r)
  let out := (ks.filter (fun k => s.pageState p k == 4 && rs.all (fun r => r.page != k))).eraseDups
  if !s.returnsFit p t rs out then (false, s)
  else
    let s := ks.foldl (fun s k => s.unspill p k) s
    let x := s.pool p
    (true, (s.setPool p { x with returns := rs ++ out.map (fun k => { page := k, tier := s.pageTier p k, target := t }) }).serveReturns p)

/-- Pages of granules ARG0 to ARG1 of a request, or the code that refuses it. -/
def State.rangePages (s : State) (p a i : Nat) : Nat ⊕ List Nat :=
  let lo := s.rec_ (a + 8) 0 64
  let hi := s.rec_ (a + 0x10) 0 64
  if hi > s.gmax p ∨ lo > hi then .inl 0xC8
  else if !s.seqActive i p then .inl 0xC9
  else .inr ((upTo (hi - lo + 1)).flatMap (fun g => s.groupPages p i (lo + g)))

/-- PIN (R310). -/
def execPin (p : Fin 16) (s : State) : Host.Outcome State Fault Refusal :=
  let p := p.val
  .next (s.serveRequest p 5 (fun a s =>
    match s.rangePages p a (s.rec_ a 32 18) with
    | .inl c => (c, s)
    | .inr ks =>
      if ks.any (fun k => s.pageState p k == 6) then (0xC6, s)
      else
        let (ok, s') := s.admitReturns p (s.turnNo + 2) ks
        if ok then (0, ks.foldl (fun s k => s.setPd p k 0 3 1 1) s') else (0xC0, s)))

/-- UNPIN (R310). -/
def execUnpin (p : Fin 16) (s : State) : Host.Outcome State Fault Refusal :=
  let p := p.val
  .next (s.serveRequest p 6 (fun a s =>
    match s.rangePages p a (s.rec_ a 32 18) with
    | .inl c => (c, s)
    | .inr ks => if ks.any (fun k => s.pageState p k == 6) then (0xC6, s) else (0, ks.foldl (fun s k => s.setPd p k 0 3 1 0) s)))

/-- PREFETCH (R313). -/
def execPrefetch (p : Fin 16) (s : State) : Host.Outcome State Fault Refusal :=
  let p := p.val
  .next (s.serveRequest p 7 (fun a s =>
    let i := s.rec_ a 32 18
    let lead := s.rec_ (a + 0x10) 0 64
    if lead < 2 ∨ lead > 4095 then (0xC8, s)
    else if !s.seqActive i p then (0xC9, s)
    else
      let ks := s.seqPages p i
      if ks.any (fun k => s.pageState p k == 6) then (0xC6, s)
      else
        let (ok, s') := s.admitReturns p (s.turnNo + lead) ks
        if ok then (0, s'.setHbm p (a + 0x18) 0 48 (s.turnNo + lead)) else (0xC0, s)))

/-- FLUSH (R310). -/
def execFlush (p : Fin 16) (s : State) : Host.Outcome State Fault Refusal :=
  let p := p.val
  .next (s.serveRequest p 8 (fun a s =>
    let nodes := (upTo (8 * s.pf p 0x38 0 32)).filter (s.nodeValid p)
    if nodes.any (fun i => s.nf p i 0x10 0 32 != 0) then (0xC7, s)
    else (0, ((nodes.foldl (fun s i => s.dropNode p i) s).setRec (poolRec p + 0x40) 0 64 (s.rec_ (a + 8) 0 64)).serveWaiting p)))

/-- SPILL_COMPLETE (R301): the tier has taken the copy. A lender's confirmation is its DONE. -/
def execSpillComplete (p : Fin 16) (page : BitVec 22) (s : State) : Host.Outcome State Fault Refusal :=
  let p := p.val
  let k := page.toNat
  let x := s.pool p
  if s.poolOn p && x.pages.contains k && s.pageState p k == 3 && (s.pageTier p k == 3 || x.acked.contains k) then
    if s.pageRefs p k = 0 then .next ((s.freePage p k).serveWaiting p)
    else
      let s := s.freeFrame p (s.rec_ (s.pd p k + 8) 0 32)
      .next (((s.setPool p { s.pool p with acked := (s.pool p).acked.filter (· != k) }).setPageState p k 4).serveWaiting p)
  else .next s

/-- A returned copy is in its local frame (R301). -/
def State.returnDone (s : State) (p k : Nat) : State :=
  let x := s.pool p
  if s.poolOn p && x.pages.contains k && s.pageState p k == 5 && x.landed.contains k then
    if s.pageRefs p k = 0 then (s.freePage p k).serveWaiting p
    else
      let s := s.freeTier p (s.pageTier p k) (s.rec_ (s.pd p k + 0x0C) 0 32)
      let y := s.pool p
      let s := s.setPool p { y with landed := y.landed.filter (· != k), returns := y.returns.filter (fun r => r.page != k) }
      ((s.setPageState p k 2).setPd p k 0 5 2 0)
  else s

/-- Whether a page may be spilled (R312). -/
def State.spillable (s : State) (p k : Nat) : Bool :=
  s.pageState p k == 2 && s.rec_ (s.pd p k) 3 1 == 0 && decide (s.rec_ (s.pd p k + 0x10) 0 48 + 2 ≤ s.turnNo)
    && (s.pool p).returns.all (fun r => r.page != k)

/-- The first tier with room (R312). -/
def State.spillTier (s : State) (p : Nat) : Option Nat :=
  [1, 2, 3].find? (fun t => decide (((s.pool p).tused.get [] t).length < s.tierFrames p t))

/-- Starts the spill of a page. -/
def State.spillPage (s : State) (p k t : Nat) : State :=
  let (f, s) := s.takeTier p t
  let s := ((s.setPageState p k 3).setPd p k 0 5 2 t).setHbm p (s.pd p k + 8) 32 32 f
  let a := s.frameAddr p (s.rec_ (s.pd p k + 8) 0 32)
  let n := s.pageBytes p
  let m := s.readHbm (some p) a n
  let s := m.st
  if t = 3 then s.emit (.hostWrite (s.pf p 0x90 1 1) (s.pf p 0x98 0 64 + f * s.frameBytes p) m.bytes)
  else
    let l := 0x70 + 0x10 * (t - 1)
    let (ok, s) := s.sendFrom {
      dest := s.pf p l 0 20, kind := 0, vc := 0, addr := s.pf p (l + 8) 0 48 + f * s.frameBytes p, owner := .spill p k, bad := s.badIn a n }
      [(a, n)] m.bytes
    -- a port that carries no messages: the page returns to FULL (R315)
    if ok then s else s.unspill p k

/-- Pages in the order in which they spill: least LAST_USE, then lower number. -/
def State.spillOrder (s : State) (p : Nat) : List Nat :=
  ((s.pool p).pages.filter (s.spillable p)).mergeSort (fun a b =>
    let la := s.rec_ (s.pd p a + 0x10) 0 48
    let lb := s.rec_ (s.pd p b + 0x10) 0 48
    decide (la < lb ∨ (la = lb ∧ a ≤ b)))

/-- Starts spills until FREE will reach HIGH (R312). -/
def State.spillTick (s : State) (p : Nat) : State :=
  let free := s.pf p 0xB0 0 32
  let on := decide (free < s.pf p 0x28 0 32) || ((s.pool p).spilling && decide (free < s.pf p 0x2C 0 32))
  let s := s.setPool p { s.pool p with spilling := on }
  if !on then s
  else (s.spillOrder p).foldl (fun s k =>
    let under := ((s.pool p).pages.filter (fun j => s.pageState p j == 3)).length
    match s.spillTier p with
    | some t => if s.pf p 0xB0 0 32 + under < s.pf p 0x2C 0 32 then s.spillPage p k t else s
    | none => s) s

/-- What a tick does to a pool (R309, R312, R313). -/
def State.poolTick (s : State) : State :=
  (upTo 16).foldl (fun s p =>
    if !s.poolOn p then s
    else
      let s := s.setPool p { s.pool p with budget := [1, 2, 3].foldl (fun b t => b.put t (s.tierBudget p t)) [] }
      (((s.readTail p).skipBad p 65536).serveReturns p).spillTick p) s

/-- Whether a step of sequence `i` must be held (R316): some page of it is not FULL or OPEN. -/
def State.pagesAway (s : State) (p i : Nat) : Bool :=
  s.poolOn p && (s.seqPages p i).any (fun k => s.pageState p k != 1 && s.pageState p k != 2)

/-- A scheduled step names its sequence's pages (R300, R301, R316): SPILLING pages return to FULL, and the return of a
SPILLED page that no admitted return names starts at once. -/
def State.namePages (s : State) (p i : Nat) : State :=
  if !s.poolOn p then s
  else
    let ks := s.seqPages p i
    let s := ks.foldl (fun s k => (s.unspill p k).setHbm p (s.pd p k + 0x10) 0 48 s.turnNo) s
    let s := if s.pagesAway p i then s.bumpRec (poolRec p + 0xBC) 0 32 1 else s
    (ks.foldl (fun s k =>
      let x := s.pool p
      if s.pageState p k = 4 ∧ x.returns.all (fun r => r.page != k) then
        s.setPool p { x with returns := x.returns ++ [{ page := k, tier := s.pageTier p k, target := 0 }] }
      else s) s).serveWaiting p

/-- The only copy of page `k` is lost (R301, R315): its READ is answered no more. -/
def State.losePage (s : State) (p k : Nat) : State :=
  let s := if s.pageState p k = 5 then s.freeFrame p (s.rec_ (s.pd p k + 8) 0 32) else s
  let s := s.setMsg { s.msg with reads := s.msg.reads.filter (fun r => !(r.2.pool == p && r.2.page == k)) }
  let x := s.pool p
  (s.setPool p { x with returns := x.returns.filter (fun r => r.page != k), landed := x.landed.filter (· != k) }).setPageState p k 6

/-- The copies of `ks` in a tier are gone. A page with REFS 0 is FREE, now that its copy in flight has ended (R303); the others
enter LOST, and are counted in one fault entry (R315). -/
def State.losePages (s : State) (p : Nat) (ks : List Nat) : State :=
  let gone := ks.filter (fun k => s.pageRefs p k != 0)
  let s := ks.foldl (fun s k => if s.pageRefs p k = 0 then s.freePage p k else s.losePage p k) s
  if gone.isEmpty then s.serveWaiting p
  else ((s.bumpRec (poolRec p + 0xC4) 0 32 gone.length).fault 0x0B 2 gone.length p 0).serveWaiting p

/-- The link of a lender's port went down (R315). -/
def State.poolLinkDown (s : State) (port : Nat) : State :=
  (upTo 16).foldl (fun s p =>
    if !s.poolOn p then s
    else [1, 2].foldl (fun s t =>
      let l := 0x70 + 0x10 * (t - 1)
      if s.pf p l 23 1 = 1 ∧ s.pf p l 20 3 = port then
        let mine := (s.pool p).pages.filter (fun k => s.pageTier p k == t)
        -- a page with REFS 0 is FREE once its copy in flight has ended (R303)
        let s := mine.foldl (fun s k =>
          let was := s.pageState p k
          let s := s.unspill p k
          if was = 3 ∧ s.pageRefs p k = 0 then s.freePage p k else s) s
        s.losePages p (mine.filter (fun k => s.pageState p k == 4 || s.pageState p k == 5))
      else s) s) s

end Sys2Proof.Machine
end

