-- ==== Sys2Proof/Machine/Groups.lean ====
section
/-!
DEFINITION. Machine/Groups.lean: shard groups (R319 to R341): their records, reductions on the module and between modules
(R152 to R157, R248, R249, R512), and gathers (R330 to R333, R453). The arrival of fragments is in Machine/Receive.lean.
-/
namespace Sys2Proof.Machine

/-! ### Group records (R320, R321, R337) -/

def State.groupState (s : State) (g : Nat) : Nat := s.gf g 0 0 2
def State.groupPart (s : State) (g : Nat) : Nat := s.gf g 0 12 4
def State.groupEpoch (s : State) (g : Nat) : Nat := s.gf g 0x18 0 16

/-- The device identifier in entry `i` of a member table. -/
def State.member (s : State) (table i : Nat) : Nat := s.peekN (table + 4 * i) 4 % 2 ^ 20

/-- The conditions of R321 on a layout: INNER, OUTER, position, replica, wire format, member table. -/
def State.layoutOk (s : State) (g inner outer q r wf table : Nat) : Bool :=
  decide (inner * outer ≤ 1048576) && (outer == 1 || isPow2 inner) && decide (q < inner) && decide (r < outer)
    && decide (wf ≤ 2) && s.inPart (s.groupPart g) table (4 * (inner * outer)) && s.member table (r * inner + q) == s.myId
    && decide (s.gf g 0 16 8 ≥ 1)

def State.currentOk (s : State) (g : Nat) : Bool :=
  s.layoutOk g (s.inner g) (s.outer g) (s.gf g 8 0 12) (s.gf g 8 12 12) (s.gf g 0x0C 0 4) (s.gf g 0x10 0 48)

def State.nextOk (s : State) (g : Nat) : Bool :=
  s.layoutOk g (s.gf g 0x1C 0 12 + 1) (s.gf g 0x1C 12 12 + 1) (s.gf g 0x20 0 12) (s.gf g 0x20 12 12) (s.gf g 0x24 0 4) (s.gf g 0x28 0 48)
    && s.gf g 0x18 16 16 != s.gf g 0x18 0 16

/-- Ends every outstanding reduction and held instance of a group with `code`; they count in ENDED (R328). -/
def State.endGroup (s : State) (g code : Nat) : State :=
  ((s.groups.insts.map (·.1)).filter (fun k => k / 1024 == g)).foldl
    (fun s k => (s.endInst g (k % 1024) code).bumpRec (groupRec g + 0x3C) 0 32 1) s

/-- A group is no longer armed. -/
def State.unarm (s : State) (g : Nat) : State :=
  let s := s.setGroups { s.groups with drainAt := s.groups.drainAt.drop g }
  s.setRec (groupRec g) 3 1 0

/-- ENABLE of a group record. -/
def State.enableGroup (s : State) (g : Nat) : State :=
  let a := groupRec g
  if s.groupState g ≠ 0 then s
  else if s.currentOk g then (((s.setRec a 0 2 1).setRec a 2 1 1).setRec a 5 1 0).setRec (a + 0x48) 0 32 0
  else s.setRec a 5 1 1

def State.disableGroup (s : State) (g : Nat) : State :=
  let a := groupRec g
  if s.groupState g = 0 then s else (((s.endGroup g 0xD4).unarm g).setRec a 0 2 0).setRec a 2 1 0

/-- ARM of a group record. -/
def State.armGroup (s : State) (g : Nat) : State :=
  let a := groupRec g
  if s.groupState g ≠ 1 then s
  else if s.gf g 0 6 1 = 1 ∨ s.nextOk g = true then ((s.setRec a 0 2 2).setRec a 3 1 1).setRec a 5 1 0
  else s.setRec a 5 1 1

def State.disarmGroup (s : State) (g : Nat) : State :=
  if s.groupState g = 2 then (s.unarm g).setRec (groupRec g) 0 2 1 else s

/-- A write of word 0 of a group record (R320). -/
def State.writeGroup0 (s : State) (w : Writer) (g : Nat) (v : Word) : State :=
  let a := groupRec g
  let s := if w = .joinery then s.setRec a 12 4 (bits v 12 4) else s
  let s := (s.setRec a 16 8 (bits v 16 8)).setRec a 6 1 (bits v 6 1)
  if !bit v 2 then s.disableGroup g
  else
    let s := s.enableGroup g
    let s := if bit v 3 then s.armGroup g else s.disarmGroup g
    if bit v 4 then s.endGroup g 0xD4 else s

/-- What a writer's write of word 0 does: another partition's is ignored. -/
def State.groupWrite (s : State) (w : Writer) (g : Nat) (v : Word) : State :=
  if s.writesFor w (s.groupPart g) then s.writeGroup0 w g v else s

/-- GROUP_ENABLE (R321). -/
def execGroupEnable (w : Writer) (g : Fin 64) (v : Word) (s : State) : Host.Outcome State Fault Refusal :=
  .next (s.groupWrite w g.val (setBits v 2 1 1))

/-- GROUP_DISABLE (R328). -/
def execGroupDisable (w : Writer) (g : Fin 64) (v : Word) (s : State) : Host.Outcome State Fault Refusal :=
  .next (s.groupWrite w g.val (setBits v 2 1 0))

/-- GROUP_ARM (R337). -/
def execGroupArm (w : Writer) (g : Fin 64) (v : Word) (s : State) : Host.Outcome State Fault Refusal :=
  .next (s.groupWrite w g.val (setBits v 2 2 3))

/-- GROUP_DISARM (R320). -/
def execGroupDisarm (w : Writer) (g : Fin 64) (v : Word) (s : State) : Host.Outcome State Fault Refusal :=
  .next (s.groupWrite w g.val (setBits v 2 2 1))

/-- GROUP_ABORT (R328). -/
def execGroupAbort (w : Writer) (g : Fin 64) (v : Word) (s : State) : Host.Outcome State Fault Refusal :=
  .next (s.groupWrite w g.val (setBits (setBits v 2 1 1) 4 1 1))

/-- SHARD_STALL (R328, R453). -/
def execShardStall (g : Fin 64) (inst : Fin 1024) (s : State) : Host.Outcome State Fault Refusal :=
  match s.inst? g.val inst.val with
  | some x =>
    if s.instOpen g.val x && decide (x.stall ≥ s.gf g.val 0 16 8) then
      .next ((s.endInst g.val inst.val 0xD3).bumpRec (groupRec g.val + 0x3C) 0 32 1)
    else .next s
  | none => .next s

/-- What a tick does to the instances: turns without an expected message are counted (R328). -/
def State.groupTick (s : State) : State :=
  s.setGroups { s.groups with insts := s.groups.insts.map (fun x =>
    (x.1, { x.2 with stall := if x.2.progress then 0 else x.2.stall + 1, progress := false })) }

/-- NEXT_EPOCH_HOLD_EXPIRY (R340): held messages of the next epoch that waited 2 turns are discarded; a message counts
with its fragment 0. -/
def execNextEpochHoldExpiry (g : Fin 64) (s : State) : Host.Outcome State Fault Refusal :=
  let late (f : AheadFrag) : Bool := f.group == g.val && decide (f.turn + 2 ≤ s.turn.ticks)
  let n := (s.groups.ahead.filter (fun f => late f && (fragOf f.flits).frag == 0)).length
  let s := s.setGroups { s.groups with ahead := s.groups.ahead.filter (fun f => !late f) }
  .next (s.bumpRec (groupRec g.val + 0x34) 0 32 n)

/-- The switch to the next layout (R338). -/
def State.switchGroup (s : State) (g : Nat) : State :=
  let a := groupRec g
  if s.groupState g ≠ 2 then s
  else
    let leave := s.gf g 0 6 1 = 1
    let s := if leave then s
      else
        let s := ((s.setRec (a + 4) 0 24 (s.gf g 0x1C 0 24)).setRec (a + 8) 0 24 (s.gf g 0x20 0 24)).setRec (a + 0x0C) 0 5 (s.gf g 0x24 0 5)
        (s.setRec (a + 0x10) 0 48 (s.gf g 0x28 0 48)).setRec (a + 0x18) 0 16 (s.gf g 0x18 16 16)
    let s := s.unarm g
    let s := (s.setRec a 0 2 (if leave then 0 else 1)).setRec a 2 1 (if leave then 0 else 1)
    (s.setRec (a + 0x40) 0 48 s.turnNo).bumpRec (a + 0x48) 0 32 1

/-! ### Values of tree nodes (R152 to R154, R248) -/

/-- How the nodes of a RED compute: integers, binary64, top-eight. The top-eight of a ZI8 source holds its integers widened to
binary32 (R76, R158). -/
def redOp (d : Desc) : Nat := d.f 0x30 0 3
def redInt (d : Desc) : Bool := d.f 0x31 0 4 == 6 && redOp d != 4
def redWide (d : Desc) : Bool := d.f 0x31 0 4 == 1
def redElems (d : Desc) : Nat := d.f 0x24 0 21 + 1

/-- The value of an encoding in the node format. -/
def redVal (d : Desc) (x : Nat) : Val := if redInt d then intVal (signed 32 x) else decodeIeee (longFmt (redWide d)) x

def topPairs : List Nat → List Top
  | v :: p :: r => (v, p) :: topPairs r
  | _ => []

def topFlat (l : List Top) : List Nat := l.flatMap (fun t => [t.1, t.2])

/-- One element of a node from its children's. -/
def redNode1 (d : Desc) (x y : Nat) : Nat × Fl :=
  if redInt d then
    if redOp d = 0 then addNodeInt x y
    else
      let a := signed 32 x
      let b := signed 32 y
      (unsigned 32 (if redOp d = 2 then min a b else max a b), 0)
  else (nodeOp (redOp d) (longFmt (redWide d)) (x, 0) (y, 0))

/-- A node from its children. -/
def redNode (d : Desc) (a b : List Nat) : List Nat × Fl :=
  if redOp d = 4 then (topFlat (topMerge (redWide d) (topPairs a) (topPairs b)), 0)
  else
    let rs := (a.zip b).map (fun p => redNode1 d p.1 p.2)
    (rs.map (·.1), rs.foldl (fun f r => f ||| r.2) 0)

/-- The leaf that a contributor's source bytes give; whether R92 counts what the load path met. DESIGN CHOICE
(notes/assumptions/59.md): LS_APPLY does nothing to a ZI8 source whose nodes are integers. -/
def redLeaf (d : Desc) (k : Int) (bs : List Byte) : List Nat × Fl × Bool :=
  let n := redElems d
  let fmt := d.f 0x31 0 4
  let xs := elemsOf fmt n bs
  if redInt d then
    (xs.map (fun x => unsigned 32 (if redOp d = 3 then ((signed 8 x).natAbs : Int) else signed 8 x)), 0, false)
  else
    let r := loadRun (redWide d) fmt k (bs.drop (zsOffset fmt n)) xs
    if redOp d = 4 then
      let t := topOf (redWide d) (r.els.zipIdx.map (fun e => (e.1, (d.f 0x38 0 64 + e.2) % 2 ^ 64)))
      (topFlat t.1, r.fl ||| t.2, r.ovf)
    else
      let ls := r.els.map (leafOp (redOp d) (longFmt (redWide d)))
      (ls.map (·.1), ls.foldl (fun f x => f ||| x.2) r.fl, r.ovf)

/-- Levels of a tree over n contributors. -/
def treeDepth (n : Nat) : Nat := if n ≤ 1 then 0 else Nat.log2 (n - 1) + 1

/-- The level up to which a node passes unchanged: until it has a partner (R152). -/
def passUp (n lo : Nat) : Nat → Nat → Nat
  | 0, l => l
  | fuel + 1, l =>
    if l < treeDepth n ∧ lo % 2 ^ (l + 1) = 0 ∧ n ≤ lo + 2 ^ l then passUp n lo fuel (l + 1) else l

/-- Whether a run of encodings met what R329 counts for nodes: a ZF16 infinity or NaN. -/
def wireSpecial (wf : Nat) (vs : List Val) : Bool := wf == 2 && vs.any (fun v => v.isNan || v.isInf)

/-- Encodings rounded to a wire format: wire encodings, node encodings, flags (R154). Records of top-eight are carried
unchanged. -/
def toWire (d : Desc) (wf : Nat) (els : List Nat) : List Nat × List Nat × Fl :=
  if redOp d = 4 then (els, els, 0)
  else
    let ws := els.map (fun x => packTo wf 0 d.sat 0 0 (redVal d x))
    let back (w : Nat) : Nat :=
      let v := elemVal wf w 0
      if redInt d then (toInt32 0 v).1 else (packLong (longFmt (redWide d)) 0 v).1
    (ws.map (·.1), ws.map (fun w => back w.1), ws.foldl (fun f w => f ||| w.2) 0)

/-- Bytes of wire encodings, and the node encodings that wire bytes carry. -/
def wireBytes (d : Desc) (wf : Nat) (ws : List Nat) : List Byte :=
  if redOp d = 4 then ws.flatMap (toBytes 8) else runBytes wf 0 ws

def ofWire (d : Desc) (wf : Nat) (bs : List Byte) : List Nat :=
  if redOp d = 4 then (blocks 8 (bs.length + 1) bs).map ofBytes
  else
    (elemsOf wf (bs.length * 8 / elemBits wf) bs).map (fun w =>
      let v := elemVal wf w 0
      if redInt d then (toInt32 0 v).1 else (packLong (longFmt (redWide d)) 0 v).1)

/-! ### Results (R153, R248) -/

/-- The root's value through the store path: bytes, and what it folds. -/
def State.redResult (s : State) (r : Run) (els : List Nat) : List Byte × Narrowed :=
  let d : Desc := r.cmd.desc
  let fmt := d.f 0x31 4 4
  if redOp d = 4 then
    let one (t : Top) : Nat × Fl := packTo fmt d.rnd d.sat 0 0 (redVal d t.1)
    let ts := topPairs els
    (ts.flatMap (fun t => toBytes 8 (one t).1 ++ toBytes 8 t.2), { fl := ts.foldl (fun f t => f ||| (one t).2) 0 })
  else
    let ls := if d.lsRemove then s.lossExp r.cmd.part else 0
    let x := narrowRun { fmt := fmt, rnd := d.rnd, sat := d.sat, seed := d.seed, k := r.slotExp 0, chan := .fin false (s.draw 32).toNat (-16) }
      0 (els.map (fun e => (redVal d e).scale (-ls)))
    (runBytes fmt 0 x.els ++ x.zs.map (BitVec.ofNat 8), x)

/-- The runs of bytes by which a result of `n` elements is stored at `dst`, where `old` gives the bytes that stand there: a
lone last ZF4 element keeps the other nibble, and the ZS8 bytes follow the elements' whole blocks (R664, R665). -/
def redRuns (fmt n dst : Nat) (old : Nat → Byte) (bs : List Byte) : List (Nat × List Byte) :=
  if fmt = 5 then
    let m := fmtBytes 5 n
    let es := (bs.take m).zipIdx.map (fun b =>
      if n % 2 = 1 ∧ b.2 + 1 = m then BitVec.ofNat 8 (b.1.toNat % 16 + (old (dst + b.2)).toNat / 16 * 16) else b.1)
    [(dst, es), (dst + zsOffset 5 n, bs.drop m)]
  else [(dst, bs)]

/-- Writes a result of `n` elements to every destination of DKIND. -/
def State.redStore (s : State) (d : Desc) (part n : Nat) (bs : List Byte) : State :=
  let dst := d.f 0x28 0 48
  let fmt := if redOp d = 4 then 1 else d.f 0x31 4 4
  let put (s : State) (l : Nat) : State :=
    (redRuns fmt n dst (s.phy (s.under l)).spdByte bs).foldl (fun s x => s.spdStore (s.under l) x.1 x.2) s
  let cores := maskCores (d.f 0x10 0 128)
  match d.f 0x28 48 2 with
  | 1 => (redRuns fmt n dst (fun a => (s.peek a 1).headD 0) bs).foldl (fun s x => s.writeHbm (some part) x.1 x.2) s
  | 2 => cores.foldl put s
  | _ => put s (cores.headD 0)

/-- Changes the run of a contributor, where it still runs. -/
def State.onRun (s : State) (l id : Nat) (f : Run → Run) : State :=
  match s.runOf l id with
  | some r => s.setRun l (f r)
  | none => s

/-- Only the store of the lowest contributor folds into the scale slot (R87). -/
def State.dropFolds (s : State) (cs : List (Nat × Nat)) : State :=
  cs.foldl (fun s c => s.onRun c.1 c.2 (fun r => { r with folds := [] })) s

/-- Every contributor of an on-module tree that has issued completes with a code, and the tree is gone (R249), with its instance
where it goes on to the module tree. -/
def State.endRed (s : State) (key code : Nat) : State :=
  match s.reds.find? key with
  | some t =>
    let s := t.cores.foldl (fun s c => s.finish c.1 c.2 code) { s with reds := s.reds.drop key }
    if key ≥ 65536 then s.endInst (key % 64) (key / 64 % 1024) code else s
  | none => s

/-! ### The module tree (R323, R324) -/

/-- shard_rank (R323). -/
def shardRank (r q k inner outer : Nat) : Nat :=
  let qq := (q + inner - k % inner) % inner
  let rr := (r + outer - k % outer) % outer
  rr * inner + qq

/-- The module of a rank in the tree of shard k, as an index of the member table. -/
def rankMember (rank k inner outer : Nat) : Nat :=
  let q := (rank % inner + k % inner) % inner
  let r := (rank / inner + k % outer) % outer
  r * inner + q

def State.myRank (s : State) (g k : Nat) : Nat := shardRank (s.gf g 8 12 12) (s.gf g 8 0 12) k (s.inner g) (s.outer g)

/-- Sends a TREE message of an instance to the module of rank `rank`; LEVEL names the level of the node that takes it. -/
def State.treeSend (s : State) (g i k rank level : Nat) (down : Bool) (cmds links : List Nat) (bs : List Byte) : State :=
  let dest := s.member (s.gf g 0x10 0 48) (rankMember rank k (s.inner g) (s.outer g))
  let arg := g + i * 2 ^ 6 + k * 2 ^ 16 + level * 2 ^ 28 + b2n down * 2 ^ 36
  let (ok, s) := (s.drew).send
    { dest := dest, kind := 2, vc := 0, epoch := s.groupEpoch g, addr := (s.draw 48).toNat, arg := arg, owner := .tree g i, cmds := cmds, links := links }
    bs
  match s.inst? g i with
  | some x => s.setInst g i (if ok then { x with sends := x.sends + 1 } else { x with fail := if x.fail = 0 then 0x94 else x.fail })
  | none => s

/-- A result of shard k comes to this module: it is sent on below level `top`, and written where it belongs (R324). -/
def State.deliver (s : State) (g i k top : Nat) (cmds links : List Nat) (bs : List Byte) : State :=
  match s.inst? g i with
  | none => s
  | some x =>
    let rank := s.myRank g k
    let n := s.inner g * s.outer g
    let levels := ((upTo (top + 1)).filter (fun l =>
      decide (1 ≤ l) && rank % 2 ^ l == 0 && decide (rank + 2 ^ (l - 1) < n) && (s.modeAll g || decide (s.inner g ≤ 2 ^ (l - 1))))).reverse
    let s := levels.foldl (fun s l => s.treeSend g i k (rank + 2 ^ (l - 1)) l true cmds links bs) s
    if (s.wanted g x).contains k then
      let s := s.redStore x.desc (s.groupPart g) (redElems x.desc / (if s.modeAll g then 1 else s.inner g)) bs
      let s := x.contribs.foldl (fun s c => s.onRun c.1 c.2 (fun r => { r with links := r.links ++ links })) s
      match s.inst? g i with
      | some x => s.setInst g i { x with got := k :: x.got }
      | none => s
    else s

/-- Whether LS_REMOVE of the instance's RED makes nodes count in STEP_OVF (R329). -/
def State.nodeOvf (s : State) (d : Desc) (part : Nat) (ovf : Bool) : State := s.stepOvf part d.lsRemove ovf

/-- The value of shard k goes up the module tree as far as it can (R152, R155): it is passed up unchanged, sent to the
parent's module, or, at the root, narrowed and sent down. -/
def State.flowShard (s : State) (g i k : Nat) : State :=
  match s.inst? g i with
  | none => s
  | some x =>
    match List.find? (fun (v : Nat × NodeVal) => v.1 / 64 == k) x.vals with
    | none => s
    | some (key, v) =>
      let rank := s.myRank g k
      let n := s.inner g * s.outer g
      let l := passUp n rank 64 (key % 64)
      let gone := { x with vals := x.vals.drop key }
      let wf := s.gf g 0x0C 0 4
      let d : Desc := x.desc
      let cmds := v.cmds
      if l = treeDepth n then
        let s := s.setInst g i gone
        match x.contribs with
        | [] => s
        | c :: rest =>
          match s.runOf c.1 c.2 with
          | none => s
          | some r =>
            let (bs, y) := s.redResult r v.els
            let s := s.drew.setRun c.1 ((r.folded 0 y).flag 2 y.fl)
            let s := (s.dropFolds rest).nodeOvf d r.cmd.part y.ovf
            s.deliver g i k l cmds v.links bs
      else if rank % 2 ^ (l + 1) ≠ 0 then
        let s := (s.setInst g i gone)
        s.treeSend g i k (rank - 2 ^ l) (l + 1) false cmds v.links (wireBytes d wf (toWire d wf v.els).1)
      else s.setInst g i { x with vals := (x.vals.drop key).put (64 * k + l) v }

/-- An instance that is not yet known begins to count in OUTSTANDING. -/
def State.openInst (s : State) (g i : Nat) : InstSt × State :=
  match s.inst? g i with
  | some x => (x, s)
  | none => ({}, (s.setInst g i {}).setRec (groupRec g + 0x30) 0 11 (s.gf g 0x30 0 11 + 1))

/-- The on-module root of a RED with MODULE set enters the module tree (R154): every shard's leaf is rounded to the wire
format. -/
def State.enterTree (s : State) (key : Nat) (t : RedTree) (v : NodeVal) : State :=
  let d : Desc := t.desc
  let g := key % 64
  let i := key / 64 % 1024
  let (x, s) := s.openInst g i
  let wf := s.gf g 0x0C 0 4
  let shards := if s.modeAll g then 1 else s.inner g
  let e := v.els.length / shards
  let w := toWire d wf v.els
  let cs := t.cores
  let l0 := (cs.headD (0, 0))
  let s := s.onRun l0.1 l0.2 (fun r => r.flag 2 w.2.2)
  let s := s.nodeOvf d t.part (w.2.2 &&& fOverflow != 0 || wireSpecial wf (w.2.1.map (redVal d)) || t.ovf)
  let vals := (upTo shards).map (fun k => (64 * k, { v with els := (w.2.1.drop (k * e)).take e }))
  let s := s.setInst g i { x with contribs := cs, desc := d, begun := true, vals := vals }
  let s : State := { s with reds := s.reds.drop key }
  ((upTo shards).foldl (fun s k => s.flowShard g i k) s).settleInst g i

/-! ### The on-module tree (R154, R155) -/

/-- Key of the on-module tree of a RED. -/
def redKey (d : Desc) : Nat := treeKey (d.f 0x34 0 16) (d.f 0x28 50 1 == 1)

/-- The first RED of a reduction with MODULE set begins its instance (R320, R326). -/
def State.beginInst (s : State) (key : Nat) : State :=
  if key ≥ 65536 then (s.openInst (key % 64) (key / 64 % 1024)).2 else s

/-- The root of an on-module tree is there: its value is written and the contributors complete, or it enters the module
tree. -/
def State.redRoot (s : State) (key : Nat) : State :=
  match s.reds.find? key with
  | none => s
  | some t =>
    let d : Desc := t.desc
    let n := (maskCores (d.f 0x10 0 128)).length
    match t.nodes.find? (128 * treeDepth n) with
    | none => s
    | some v =>
      if key ≥ 65536 then s.enterTree key t v
      else
        match t.cores with
        | [] => s
        | c :: rest =>
          match s.runOf c.1 c.2 with
          | none => s.endRed key 0
          | some r =>
            let (bs, y) := s.redResult r v.els
            let s := s.drew.setRun c.1 ((r.folded 0 y).flag 2 y.fl)
            let s := (s.dropFolds rest).nodeOvf d t.part (y.ovf || t.ovf)
            let s := t.cores.foldl (fun s c => s.onRun c.1 c.2 (fun r => { r with links := r.links ++ v.links })) s
            (s.redStore d t.part (redElems d) bs).endRed key 0

/-- Whether contributors of one RID agree (RED_MISMATCH of R235): MASK, OP, COUNT, SFMT, DFMT, EPOCH. -/
def redAgree (a b : Desc) : Bool :=
  a.f 0x10 0 128 == b.f 0x10 0 128 && redOp a == redOp b && a.f 0x24 0 21 == b.f 0x24 0 21
    && a.f 0x31 0 8 == b.f 0x31 0 8 && a.f 0x36 0 16 == b.f 0x36 0 16

/-- A value enters an on-module tree at (level, lo), passing up where it has no partner. -/
def RedTree.enter (t : RedTree) (n level lo : Nat) (v : NodeVal) : RedTree :=
  { t with nodes := t.nodes.put (128 * passUp n lo 64 level + lo) v }

/-- Whether a RED may not yet issue: its core already contributes to the reduction, or its instance is outstanding
(R326). -/
def State.redWaits (s : State) (l : Nat) (d : Desc) : Bool :=
  (match s.reds.find? (redKey d) with
    | some t => (t.cores.find? l).isSome
    | none => false)
    || (d.f 0x28 50 1 == 1 && (match s.inst? (d.f 0x34 0 6) (d.f 0x34 6 10) with
      | some x => x.begun
      | none => false))

/-- RED (R248): the contributor's source is read and its leaf enters the tree. -/
def execRed (c : Fin 128) (tag : Fin 4096) (s : State) : Host.Outcome State Fault Refusal :=
  let l := c.val
  match (s.core l).run tag.val with
  | none => .next s
  | some r =>
    let d : Desc := r.cmd.desc
    let key := redKey d
    let src := d.f 0x20 0 32
    let len := runSpan (d.f 0x31 0 4) (redElems d)
    let read := s.eccRead (s.under l) .spd [(src, len)]
    if Desc.cls r.cmd.desc ≠ 5 ∨ r.issuedAll ∨ r.done ∨ r.replaying ∨ s.redWaits l d then .next s
    else if read.1 then .next (read.2.askReplay l r.cmd.id)
    else
      let s := read.2
      let n := (maskCores (d.f 0x10 0 128)).length
      let lo := ((maskCores (d.f 0x10 0 128)).filter (fun x => decide (x < l))).length
      let t : RedTree := s.reds.get { desc := d, part := r.cmd.part, at_ := s.cycles } key
      let t := { t with cores := t.cores.put l r.cmd.id }
      let k := if d.lsApply then s.lossExp r.cmd.part else 0
      let (els, fl, ovf) := redLeaf d k (s.spdLoad (s.under l) src len)
      let s := (s.spdDrew src len).stepOvf r.cmd.part d.lsUses (ovf || fl &&& fOverflow != 0)
      let v : NodeVal := { els := els, cmds := s.uncrossed [(spdSpace l + src, len)], links := r.links }
      let zf16 := d.f 0x31 0 4 == 2 && !redInt d && redOp d != 4 && els.any (fun x => (redVal d x).isNan || (redVal d x).isInf)
      let t := { t.enter n 0 lo v with ovf := t.ovf || zf16 }
      let s := State.beginInst { s.setRun l { (r.flag 2 fl) with issuedAll := true } with reds := s.reds.put key t } key
      if !redAgree t.desc d then .next (s.endRed key 0x1E) else .next (s.redRoot key)

/-- RED_TIMEOUT (R249): a contributor has not issued within 2^24 cycles of the first. -/
def execRedTimeout (module : Bool) (rid : Fin 65536) (s : State) : Host.Outcome State Fault Refusal :=
  let key := treeKey rid.val module
  match s.reds.find? key with
  | some t =>
    if t.cores.length < (maskCores (Desc.f t.desc 0x10 0 128)).length then .next (s.endRed key 0x1F) else .next s
  | none => .next s

/-- A node of the on-module tree combines (R155, R512): its flags belong to the contributor on whose core it is computed. -/
def State.combineCore (s : State) (key level lo : Nat) (fails : Bool) : State :=
  match s.reds.find? key with
  | none => s
  | some t =>
    let d : Desc := t.desc
    let cores := maskCores (d.f 0x10 0 128)
    let half := 2 ^ (level - 1)
    match t.nodes.find? (128 * (level - 1) + lo), t.nodes.find? (128 * (level - 1) + lo + half) with
    | some a, some b =>
      if level = 0 then s
      else if fails && redOp d == 0 then s.endRed key 0x30
      else
        let (els, fl) := redNode d a.els b.els
        let v : NodeVal := { els := els, cmds := a.cmds ++ b.cmds, links := a.links ++ b.links }
        let t := { t with nodes := (t.nodes.drop (128 * (level - 1) + lo)).drop (128 * (level - 1) + lo + half) }
        let t := { t.enter cores.length level lo v with ovf := t.ovf || fl &&& fOverflow != 0 }
        let l := cores.getD lo 0
        let s := match t.cores.find? l with
          | some id => s.onRun l id (fun r => r.flag 2 fl)
          | none => s
        State.redRoot { s with reds := s.reds.put key t } key
    | _, _ => s

/-- A node of the module tree combines on this module (R154, R155, R512): its flags go to the receive path of the port on
which its right child arrived. -/
def State.combineModule (s : State) (g i k level : Nat) (fails : Bool) : State :=
  match s.inst? g i with
  | none => s
  | some x =>
    let d : Desc := x.desc
    let wf := s.gf g 0x0C 0 4
    match x.vals.find? (64 * k + level - 1), x.right.find? (64 * k + level) with
    | some a, some b =>
      if level = 0 ∨ !x.begun then s
      else if fails && redOp d == 0 then s.endInst g i 0x30
      else
        let bv := ofWire d wf b.data
        let (els, fl) := redNode d a.els bv
        let w := toWire d wf els
        let f := fl ||| w.2.2
        let v : NodeVal := { els := w.2.1, cmds := a.cmds, links := a.links ++ b.link.toList }
        let s := s.setInst g i { x with vals := (x.vals.drop (64 * k + level - 1)).put (64 * k + level) v, right := x.right.drop (64 * k + level) }
        let s := s.setReg (lnkBase b.port + 0x1C) (s.reg (lnkBase b.port + 0x1C) ||| BitVec.ofNat 32 (f.toNat % 32))
        let part := (x.contribs.head?.bind (fun c => (s.runOf c.1 c.2).map (·.cmd.part))).getD (s.groupPart g)
        let s := s.nodeOvf d part (f &&& fOverflow != 0 || wireSpecial wf ((bv ++ w.2.1).map (redVal d)))
        (s.flowShard g i k).settleInst g i
    | _, _ => s

/-- TREE_NODE_COMBINE (R155, R512): two failing residue checks end the reduction on this module. -/
def execTreeNodeCombine (module : Bool) (rid : Fin 65536) (shard : Option (Fin 4096)) (level : Fin 32) (lo : Fin 128) (miss : Fin 3)
    (s : State) : Host.Outcome State Fault Refusal :=
  match shard with
  | none => .next (s.combineCore (treeKey rid.val module) level.val lo.val (miss.val == 2))
  | some k => .next (s.combineModule (rid.val % 64) (rid.val / 64) k.val level.val (miss.val == 2))

/-- A TREE message has arrived whole and its epoch is the group's (R326): a right child waits for its node, a result is
delivered; an instance that is not yet issued here holds it. -/
def State.treeArrive (s : State) (g i k level : Nat) (down : Bool) (data : List Byte) (port : Nat) (link : Option Nat) : State :=
  let (x, s) := s.openInst g i
  let s := if x.begun then s else s.bumpRec (groupRec g + 0x38) 0 32 1
  if down then
    if x.begun then (s.setInst g i { x with progress := true }).deliver g i k (level - 1) [] link.toList data |>.settleInst g i
    else s
  else
    s.setInst g i { x with right := x.right.put (64 * k + level) { data := data, port := port, link := link }, progress := true }

/-! ### Gathers (R331, R333, R453) -/

/-- Bytes of an element of a format of a gather. -/
def gathSize (fmt : Nat) : Nat := elemBits fmt / 8

/-- The receive path of a gather: elements in SFMT become elements in DFMT; k is the exponent of the compute copy. -/
def gathConvert (sfmt cfmt dfmt : Nat) (k : Int) (sat : Bool) (bs : List Byte) : List Byte × Fl :=
  let xs := elemsOf sfmt (bs.length / gathSize sfmt) bs
  let c : List Nat × Fl := if sfmt = 0 then
      let x := narrowRun { fmt := cfmt, rnd := 0, sat := sat, seed := 0, k := k } 0 (xs.map (fun x => elemVal 0 x 0))
      (x.els, x.fl)
    else (xs, 0)
  if dfmt = 2 then
    let rs := c.1.map (fun x => widen 2 ((elemVal cfmt x 0).scale (-k)))
    (runBytes 2 0 (rs.map (·.1)), rs.foldl (fun f r => f ||| r.2) c.2)
  else (runBytes cfmt 0 c.1, c.2)

/-- GATH (R453): the shard is sent to the other positions of the replica, in ascending position, and with SELF is also
placed here. With RES the whole is tested and charged first (R441). -/
def execGath (c : Fin 128) (tag : Fin 4096) (s : State) : Host.Outcome State Fault Refusal :=
  let l := c.val
  match (s.core l).run tag.val with
  | none => .next s
  | some r =>
    let d : Desc := r.cmd.desc
    let g := d.f 0x28 0 6
    let i := d.f 0x28 6 10
    let busy := (s.reds.find? (treeKey (g + 64 * i) true)).isSome || (match s.inst? g i with
      | some x => x.begun
      | none => false)
    if Desc.cls r.cmd.desc != 7 || r.issuedAll || r.done || busy then .next s
    else
      let part := r.cmd.part
      let sfmt := d.f 0x24 0 4
      let cfmt := d.f 0x24 4 4
      let dfmt := d.f 0x24 8 4
      let e := d.f 0x20 0 32 + 1
      let n := fmtBytes sfmt e
      let src := d.f 0x10 0 48
      let inner := s.inner g
      let q := s.gf g 8 0 12
      let row := s.gf g 8 12 12 * inner
      let dests := (upTo (inner - 1)).map (fun j => s.member (s.gf g 0x10 0 48) (row + (q + 1 + j) % inner))
      let res := d.f 0x24 13 1 = 1
      match (if res then s.reserve_ part (dests.map (fun m => (m, n))) else .inr s) with
      | .inl code => .next ((s.countRefused (dests.map (fun m => (m, n)))).finish l r.cmd.id code)
      | .inr s =>
        let (x, s) := s.openInst g i
        let s := s.setInst g i { x with gath := true, contribs := [(l, r.cmd.id)], desc := d, begun := true }
        let s := s.setRun l { r with issuedAll := true }
        let m := s.readHbm (some part) src n
        let bad := s.badIn src n
        let s := m.st
        let k := d.f 0x2C 0 8
        let dst := d.f 0x18 0 48 + q * e * gathSize dfmt
        let arg := g + i * 2 ^ 6 + q * 2 ^ 16 + sfmt * 2 ^ 28 + k * 2 ^ 32 + cfmt * 2 ^ 40 + dfmt * 2 ^ 44
        let s := dests.foldl (fun s m' =>
          let (ok, s) := s.sendFrom
            { dest := m', kind := 1, vc := if res then 1 else 0, res := res, epoch := s.groupEpoch g, addr := dst
              adv := fragMax / gathSize sfmt * gathSize dfmt, arg := arg, owner := .tree g i, bad := bad }
            [(src, n)] m.bytes
          match s.inst? g i with
          | some x => s.setInst g i (if ok then { x with sends := x.sends + 1 } else { x with fail := if x.fail = 0 then 0x94 else x.fail })
          | none => s) s
        let s := if d.f 0x24 12 1 = 1 then
            let (bs, fl) := gathConvert sfmt cfmt dfmt (signed 8 k) (s.draw 1 == 1) m.bytes
            let bad' := bad.map (fun b => (b.1 / gathSize sfmt * gathSize dfmt, ceilDiv b.2 (gathSize sfmt) * gathSize dfmt))
            (s.drew.writeBad (some part) dst bs bad').onRun l r.cmd.id (fun r => r.flag 2 fl)
          else s
        .next (s.settleInst g i)

end Sys2Proof.Machine
end

