-- ==== Sys2Proof/Machine/Links.lean ====
section
/-!
DEFINITION. Machine/Links.lean: the link layer of the Isaryn ports (R395 to R427): states, calibration, frames, retry,
credits, heartbeats, lanes and markers.
-/
namespace Sys2Proof.Machine

/-! ### Small parts -/

/-- CRC-32 of IEEE 802.3 over a list of bytes (R398). -/
def crc32 (bs : List Byte) : Nat :=
  let step (c : Nat) : Nat := if c % 2 = 1 then (c / 2) ^^^ 0xEDB88320 else c / 2
  (bs.foldl (fun c b => (upTo 8).foldl (fun c _ => step c) (c ^^^ b.toNat)) 0xFFFFFFFF) ^^^ 0xFFFFFFFF

/-- Link time (R406): 1/16 ns. -/
def State.linkTime (s : State) : Nat := 4 * s.now4

def flitType (x : BitVec 2048) : Nat := bits x 0 4
def flitSeq (x : BitVec 2048) : Nat := bits x 8 16
def flitCrc (x : BitVec 2048) : Nat := bits x 2016 32

/-- A flit with its sequence number and CRC. -/
def sealFlit (seq : Nat) (x : BitVec 2048) : BitVec 2048 :=
  let x := setBits x 8 16 seq
  setBits x 2016 32 (crc32 (toBytes 252 x.toNat))

/-- A CONTROL flit with CTYPE `t` and payload fields (byte offset, bytes, value). -/
def ctlFlit (t : Nat) (fs : List (Nat × Nat × Nat)) : BitVec 2048 :=
  fs.foldl (fun x f => setBits x (8 * f.1) (8 * f.2.1) f.2.2) (BitVec.ofNat 2048 (2 + t * 2 ^ 64))

/-- Queues a CONTROL flit. -/
def State.queueCtl (s : State) (p : Nat) (x : SeqFlit) : State :=
  let q := s.port p
  if q.st = .up then s.setPort p { q with ctl := q.ctl ++ [x] } else s

/-- Queues a MARKER whose AGE counts from link time `base` (R420 to R422). -/
def State.sendMarker (s : State) (p turn mtick hops master : Nat) (base : Int) : State :=
  s.queueCtl p { flit := ctlFlit 1 [(0x10, 6, turn), (0x18, 8, mtick), (0x24, 1, hops), (0x28, 4, master)], base := some base }

/-- LNK_EVENT bit `b` of a port. -/
def State.lnkEvent (s : State) (p b : Nat) : State := s.raise (8 + p) b

/-- Whether `id` and `port` name the end that must face port `p` (R430). -/
def State.rightPartner (s : State) (p id port : Nat) : Bool :=
  s.neighbour s.myId p == some id && port == (if p % 2 = 0 then p + 1 else p - 1)

/-- PORT_INFO names the partner (R430). -/
def State.portInfo (s : State) (p : Nat) (sender : BitVec 23) : State :=
  let s := s.setReg (lnkBase p + 0x14) (BitVec.ofNat 32 (sender.toNat + 2 ^ 23))
  s.setRec (portRec p + 8) 1 1 (b2n (!s.rightPartner p (bits sender 0 20) (bits sender 20 3)))

/-! ### Lanes (R415 to R418) -/

/-- What a new mask of FAILED lanes does on its side (R418): the lanes that put a spare into use, spares that fail, and those that
bring half width raise their events and the replacement request, each with an entry in the fault record. -/
def State.lanesFail (s : State) (p : Nat) (old new : BitVec 52) : State :=
  let full := (buildMap new).length == 48
  let half := isHalf new && !isHalf old
  let fresh := (upTo 52).filter (fun l => new.getLsbD l && !old.getLsbD l && (decide (48 ≤ l) || full || half))
  if fresh.isEmpty then s
  else
    let s := if full || fresh.any (fun l => decide (48 ≤ l)) then s.lnkEvent p 4 else s
    let s := if half then s.lnkEvent p 5 else s
    let s := s.replace 3
    fresh.foldl (fun s l => s.fault 0x08 3 (0x10 + l) p 0) s

/-! ### Link down (R410) -/

/-- Sends UNREACH for a message of `src` (R445). -/
def State.sayUnreach (s : State) (src mtag dest : Nat) : State :=
  (s.tell src 5 0 (mtag + dest * 2 ^ 16)).bumpRec (msgCtl + 0x3C) 0 32 1

/-- UNREACH for a transit message whose output port is down, once per message. -/
def State.transitLost (s : State) (p src mtag dest : Nat) : State :=
  let q := s.port p
  if q.told.contains (src, mtag) then s
  else (s.setPort p { q with told := (src, mtag) :: q.told }).sayUnreach src mtag dest

/-- Declares the link of an UP port down, with a cause; `next` is the state that it enters. -/
def State.linkDown (s : State) (p cause : Nat) (next : LnkState := .down) : State :=
  let q := s.port p
  if q.st ≠ .up then s
  else
    let lost := q.retry.length + q.rx.foldl (fun n v => n + v.2.length) 0
    let transit := q.outq.flatMap (fun v => v.2.filterMap (·.transit))
    let s := s.setPort p { q with
      st := next, retry := [], resend := [], rx := [], ctl := [], outq := [], nakDue := false, inEpisode := false, told := [] }
    let s := (s.bump (lnkBase p + 0x5C) lost).bump (lnkBase p + 0x64) 1
    let s := (s.setReg (lnkBase p + 0x10) (BitVec.ofNat 32 cause)).lnkEvent p 1
    let s := s.fault 0x08 2 cause p 0
    let s := transit.foldl (fun s t => s.transitLost p t.1 t.2.1 t.2.2) s
    let s := ((s.msg.out.filter (fun m => m.2.port == p && !m.2.done)).map (·.1)).foldl (fun s k => s.endMsg k 0x94) s
    (s.ringLinkDown p).poolLinkDown p

/-! ### LNK_CTL (R425) -/

/-- A write to LNK_CTL: only Joinery's is taken (R629). -/
def State.writeLnkCtl (s : State) (r : Requester) (p : Nat) (v : Word) : State :=
  if r ≠ .joinery then s
  else
    let was := s.fld (lnkBase p) 0 1
    let s := s.setReg (lnkBase p) (v &&& 0xFF03)
    let s :=
      if !bit v 0 then
        let s := s.linkDown p 5 .off
        if was = 1 ∨ (s.port p).st ≠ .off then s.setPort p { s.port p with st := .off } else s
      else if (s.port p).st = .off then s.setPort p { s.port p with st := .cal } else s
    let s := if bit v 2 && (s.port p).st == .down then s.setPort p { s.port p with st := .seek } else s
    if bit v 3 then s.linkDown p 5 else s

/-- LINK_ENABLE (R409). -/
def execLinkEnable (r : Requester) (p : Fin 6) (v : Word) (s : State) : Host.Outcome State Fault Refusal :=
  .next (s.writeLnkCtl r p.val (setBits v 0 1 1))

/-- LINK_DISABLE (R425). -/
def execLinkDisable (r : Requester) (p : Fin 6) (v : Word) (s : State) : Host.Outcome State Fault Refusal :=
  .next (s.writeLnkCtl r p.val (setBits v 0 1 0))

/-- RETRAIN (R411): the other fields are written as they stand. -/
def execRetrain (r : Requester) (p : Fin 6) (s : State) : Host.Outcome State Fault Refusal :=
  .next (s.writeLnkCtl r p.val (s.reg (lnkBase p.val) ||| 4))

/-- FORCE_DOWN (R410). -/
def execForceDown (r : Requester) (p : Fin 6) (s : State) : Host.Outcome State Fault Refusal :=
  .next (s.writeLnkCtl r p.val (s.reg (lnkBase p.val) ||| 8))

/-! ### Calibration and training (R409, R411, R412) -/

/-- CALIBRATION_COMPLETE (R412): steps 1 and 2. -/
def execCalibrationComplete (p : Fin 6) (ok : Bool) (s : State) : Host.Outcome State Fault Refusal :=
  let q := s.port p.val
  if q.st = .cal then .next (s.setPort p.val { q with st := if ok then .seek else .failed }) else .next s

/-- Receive sizes of the VCs as LNK_VC_CFG holds them, or the reset sizes where their sum is too large (R404, R425). -/
def State.takeSizes (s : State) (p : Nat) : State :=
  let cfg := (upTo 4).map (fun v => s.fld (lnkBase p + 0x20 + 4 * v) 0 15)
  let past := cfg.foldl (· + ·) 0 > 16384
  let sizes := if past then [8192, 2048, 4096, 2048] else cfg
  let s := s.setPort p { s.port p with size := sizes.zipIdx.map (fun x => (x.2, x.1)) }
  if past then s.lnkEvent p 8 else s

/-- PARTNER_LOCK (R409): at least 24 lanes lead to TRAIN, where new VC sizes take effect. -/
def execPartnerLock (p : Fin 6) (lanes : Fin 53) (s : State) : Host.Outcome State Fault Refusal :=
  let p := p.val
  let q := s.port p
  if q.st = .seek ∧ lanes.val ≥ 24 then
    .next (((s.setPort p { q with st := .train }).setFld (lnkBase p + 0x14) 23 1 0).takeSizes p)
  else .next s

/-- TRAINING_COMPLETE (R409, R412, R405): the FAILED masks and PORT_INFO are exchanged, and the port enters UP with every
count at 0; or it enters DOWN. -/
def execTrainingComplete (p : Fin 6) (ok full : Bool) (screen peerFailed : BitVec 52) (info : BitVec 23) (sizes : BitVec 60)
    (peerGen : BitVec 4) (delay : Word) (s : State) : Host.Outcome State Fault Refusal :=
  let p := p.val
  let q := s.port p
  if q.st ≠ .train then .next s
  else
    let rx := q.rxFailed ||| screen
    let tx := q.txFailed ||| peerFailed
    let s := (s.lanesFail p q.rxFailed rx).lanesFail p q.txFailed tx
    let s := s.portInfo p info
    if !ok || (buildMap rx).isEmpty || (buildMap tx).isEmpty then
      .next (s.setPort p { s.port p with st := .down, rxFailed := rx, txFailed := tx })
    else
      let gen := (q.lastGen + 1) % 16
      let x : Port := {
        st := .up, epoch := (q.epoch + 1) % 256, qualityLow := q.qualityLow && !full
        txFailed := tx, rxForce := rx, rxFailed := rx, txGen := peerGen.toNat, rxGen := gen, lastGen := gen, masks := [(gen, rx)]
        window := q.window, size := q.size, lastBeat := s.now4, delays := List.replicate 64 delay.toNat
        peerSize := (upTo 4).map (fun v => (v, bits sizes (15 * v) 15)), txSub := q.txSub, rxSub := q.rxSub, fnum := q.fnum }
      .next (((s.setPort p x).setReg (lnkBase p + 0x18) delay).lnkEvent p 0)

/-- HOLDOFF_EXPIRY (R411). -/
def execHoldoffExpiry (p : Fin 6) (s : State) : Host.Outcome State Fault Refusal :=
  let q := s.port p.val
  if q.st = .down ∧ s.fld (lnkBase p.val) 1 1 = 1 then .next (s.setPort p.val { q with st := .seek }) else .next s

/-! ### Retry (R402, R403) -/

/-- The sender goes back: every unacknowledged flit is sent again, oldest first. -/
def State.goBack (s : State) (p : Nat) : State :=
  let q := s.port p
  let s := (s.bump (lnkBase p + 0x48) 1).lnkEvent p 3
  let s := s.setPort p { q with resend := q.retry, goBacks := q.goBacks + 1 }
  if q.goBacks + 1 ≥ 16 then s.linkDown p 2 else s

/-- RETRY_TIMEOUT (R402). -/
def execRetryTimeout (p : Fin 6) (s : State) : Host.Outcome State Fault Refusal :=
  let q := s.port p.val
  if q.st = .up ∧ !q.retry.isEmpty then .next (s.goBack p.val) else .next s

/-- ACK and NAK of a frame (R402): flits before ACK are freed; a NAK that names no flit of the retry buffer takes the port down. -/
def State.acknowledge (s : State) (p ack : Nat) (nak : Bool) : State :=
  let q := s.port p
  let held := (q.retry.zipIdx.find? (fun x => x.1.seq == ack)).map (·.2)
  let n := if ack = q.nextSeq then some q.retry.length else held
  let s := match n with
    | some n => s.setPort p { q with
        retry := q.retry.drop n, resend := q.resend.filter (fun x => (q.retry.drop n).contains x), goBacks := if n = 0 then q.goBacks else 0 }
    | none => s
  if !nak then s else if held.isSome then s.goBack p else s.linkDown p 4

/-! ### Lanes: failures and maps -/

/-- Receive lanes become FAILED (R415, R416): a LANE_SWAP carries the whole mask under the next generation. -/
def State.failLanes (s : State) (p : Nat) (m : BitVec 52) : State :=
  let q := s.port p
  let new := q.rxFailed ||| m
  if new = q.rxFailed then s
  else
    let gen := (q.lastGen + 1) % 16
    let s := s.setPort p { q with rxFailed := new, lastGen := gen, masks := q.masks.put gen new }
    let s := s.lanesFail p q.rxFailed new
    if (buildMap new).isEmpty then s.linkDown p 3
    else s.queueCtl p { flit := ctlFlit 2 [(0x10, 8, new.toNat), (0x18, 1, gen)] }

/-- LANE_LOCK_LOSS (R415). -/
def execLaneLockLoss (p : Fin 6) (lane : Fin 52) (s : State) : Host.Outcome State Fault Refusal :=
  .next (s.failLanes p.val (BitVec.ofNat 52 (2 ^ lane.val)))

/-- LANE_ERROR_WINDOW (R415). -/
def execLaneErrorWindow (p : Fin 6) (s : State) : Host.Outcome State Fault Refusal :=
  let p := p.val
  let q := s.port p
  let thr := s.fld (lnkBase p + 0x30) 0 24
  let m := q.window.foldl (fun m w => if w.2 > thr then m ||| BitVec.ofNat 52 (2 ^ w.1) else m) (0 : BitVec 52)
  .next ((s.setPort p { q with window := [] }).failLanes p m)

/-- A LANE_SWAP is acted on by the transmitter (R416, R417). -/
def State.laneSwap (s : State) (p : Nat) (mask : BitVec 52) (gen : Nat) : State :=
  let q := s.port p
  let s := s.setPort p { q with txFailed := mask, txGen := gen }
  let s := s.lanesFail p q.txFailed mask
  if (buildMap mask).isEmpty then s.linkDown p 3 else s

/-- QUALITY_LOW is set (R414). -/
def State.qualityLow (s : State) (p : Nat) : State :=
  let q := s.port p
  if q.qualityLow then s else (s.setPort p { q with qualityLow := true }).lnkEvent p 7

/-! ### Receiving (R401, R405 to R408, R420 to R422) -/

/-- HEARTBEAT_MISS (R407). -/
def execHeartbeatMiss (p : Fin 6) (s : State) : Host.Outcome State Fault Refusal :=
  let p := p.val
  let q := s.port p
  if q.st ≠ .up then .next s
  else
    let s := ((s.setPort p { q with misses := q.misses + 1 }).bump (lnkBase p + 0x58) 1).lnkEvent p 2
    if q.misses + 1 ≥ 4 then .next (s.linkDown p 1) else .next s

/-- A HEARTBEAT is accepted (R407, R408): it ends the misses, and with an echo of one of ours gives a delay. -/
def State.heartbeat (s : State) (p : Nat) (x : BitVec 2048) : State :=
  let q := s.port p
  let now := s.linkTime
  let echo := bits x 128 64
  let hold := bits x 192 32
  let q := { q with misses := 0, peerBeat := bits x 64 64, peerAt := now }
  if echo = 0 then s.setPort p q
  else
    let ds := ((now - echo - hold) / 2 :: q.delays).take 64
    (s.setPort p { q with delays := ds }).setReg (lnkBase p + 0x18) (BitVec.ofNat 32 (ds.foldl (· + ·) 0 / ds.length))

/-- A MARKER is accepted on port `p` (R27, R29, R421, R422): a follower takes those of MARKER_PORT, and re-emits them. -/
def State.takeMarker (s : State) (p : Nat) (x : BitVec 2048) : State :=
  if !(s.spindleOn && s.turn.role == .follower && s.fld Reg.trnCtl 8 3 == p) then s
  else
    let n := bits x 128 48
    let base : Int := (s.linkTime : Int) - (bits x 256 32 : Nat) - ((s.reg (lnkBase p + 0x18)).toNat : Nat)
    let out := s.fld Reg.trnCtl 16 6
    let s := s.marker n ((16 * (s.turn.tick.toNat : Int) - base) / 16)
    (upTo 6).foldl (fun s k =>
      if out.testBit k then s.sendMarker k n (bits x 192 64) (min 255 (bits x 288 8 + 1)) (bits x 320 20) base else s) s

/-- A CONTROL flit is accepted (R406, R416, R420). -/
def State.takeControl (s : State) (p : Nat) (x : BitVec 2048) : State :=
  match bits x 64 8 with
  | 1 => s.takeMarker p x
  | 2 => s.laneSwap p (BitVec.ofNat 52 (bits x 128 52)) (bits x 192 4)
  | 3 =>
    let s := s.portInfo p (BitVec.ofNat 23 (bits x 128 23))
    s.setPort p { s.port p with peerSize := (upTo 4).map (fun v => (v, bits x (192 + 16 * v) 15)) }
  | _ => s.linkDown p 4

/-- Whether a sequenced flit's number is the expected one; a discard after an accepted flit asks for a NAK (R402). -/
def State.discard (s : State) (p : Nat) : State :=
  let q := s.port p
  if q.inEpisode then s else s.setPort p { q with inEpisode := true, nakDue := true }

/-- Index of the flit that starts the last fragment of a run. -/
def lastStart (fs : List (BitVec 2048)) : Nat := fs.zipIdx.foldl (fun k x => if flitPos x.1 ≤ 1 then x.2 else k) 0

/-- A whole fragment for this module has a reserved kind or a reserved bit set (BADMSG of R431, R437). DESIGN CHOICE
(notes/assumptions/65.md): R431 counts a reserved field and R437 discards only a reserved kind; the model discards both. -/
def State.badFrag (s : State) (fs : List (BitVec 2048)) : Bool :=
  let x := fs.headD 0
  let h (off lo w : Nat) : Nat := bits x (64 + 8 * off + lo) w
  flitDest x == s.myId && (decide (h 0 20 4 > 11) || h 0 26 6 != 0 || (h 0 20 4 != 11 && h 8 20 12 != 0) || h 0x0C 20 12 != 0
    || h 0x10 62 2 != 0 || fs.any (fun y => bits y 55 9 != 0))

/-- One flit of a frame; `ok`: every codeword that carries one of its bits decoded (R401). -/
def State.takeFlit (s : State) (p : Nat) (ok : Bool) (x : BitVec 2048) : State :=
  let q := s.port p
  let t := flitType x
  let crcOk := crc32 (toBytes 252 x.toNat) == flitCrc x
  let sequenced := t == 1 || t == 2
  if q.st ≠ .up then s
  else
    let s := if crcOk then s else s.bump (lnkBase p + 0x4C) 1
    if !ok || !crcOk then (if sequenced then s.discard p else s)
    else if t > 3 then s.linkDown p 4
    else if sequenced && flitSeq x != q.expSeq then (s.bump (lnkBase p + 0x60) 1).discard p
    else
      let n := q.rxSub + 1
      let s := if n ≥ 2 ^ 20 then s.bump (lnkBase p + 0x44) 1 else s
      let q := { q with
        rxSub := n % 2 ^ 20, expSeq := if sequenced then (q.expSeq + 1) % 65536 else q.expSeq
        inEpisode := if sequenced then false else q.inEpisode }
      let v := flitVc x
      match t with
      | 1 =>
        if s.rec_ (portRec p + 8) 1 1 = 1 then s.setPort p { q with freed := q.freed.upd 0 v (· + 1) }
        else if (q.rx.get [] v).length ≥ q.size.get 0 v then (s.setPort p q).linkDown p 4
        else
          let got := q.rx.get [] v ++ [x]
          let k := lastStart got
          if (flitPos x == 0 || flitPos x == 3) && s.badFrag (got.drop k) then
            (s.setPort p { q with rx := q.rx.put v (got.take k), freed := q.freed.upd 0 v (· + (got.length - k)) }).bumpRec (msgCtl + 0x2C) 0 32 1
          else s.setPort p { q with rx := q.rx.put v got }
      | 2 => (s.setPort p q).takeControl p x
      | 3 => (s.setPort p q).heartbeat p x
      | _ => s.setPort p q

/-- Symbols in error of a codeword. -/
def cwErrs (errs : List (Fin 6 × Fin 544)) (c : Nat) : Nat := (errs.filter (fun e => e.1.val == c)).length

/-- The logical lane of symbol `j` of codeword `c` (R396). -/
def symbolLane (half : Bool) (c j : Nat) : Nat := if half then (j + 544 * c) % 24 else (j + 16 * c) % 48

/-- The physical receive lane on which symbol `j` of codeword `c` comes, by the map in force (R396, R416). -/
def Port.laneOf (q : Port) (c j : Nat) : Nat := (buildMap q.rxForce).getD (symbolLane (isHalf q.rxForce) c j) 0

/-- The FEC of a frame (R395, R414, R415): counts of codewords and of corrected symbols per lane. -/
def State.frameFec (s : State) (p : Nat) (errs : List (Fin 6 × Fin 544)) : State :=
  let s := (upTo 6).foldl (fun s c =>
    let n := cwErrs errs c
    if n = 0 then s
    else if n ≤ 15 then s.bump (lnkBase p + 0x50) 1
    else ((s.bump (lnkBase p + 0x54) 1).lnkEvent p 6).qualityLow p) s
  errs.foldl (fun s e =>
    if cwErrs errs e.1.val > 15 then s
    else
      let q := s.port p
      let l := q.laneOf e.1.val e.2.val
      let w := q.window.upd 0 l (· + 1)
      let s := (s.setPort p { q with window := w }).bump (lnkBase p + 0x200 + 4 * l) 1
      if 4 * w.get 0 l > s.fld (lnkBase p + 0x30) 0 24 then s.qualityLow p else s) s

/-- Whether every codeword that carries a bit of slot `i` decoded. -/
def slotOk (errs : List (Fin 6 × Fin 544)) (i : Nat) : Bool :=
  (upTo 6).all (fun c => !(decide ((120 + 2048 * i) / 5140 ≤ c) && decide (c ≤ (120 + 2048 * i + 2047) / 5140)) || decide (cwErrs errs c ≤ 15))

/-- FRAME_RECEIVE (R401, R402, R405, R416): frame control first, then the flits in slot order. -/
def execFrameReceive (p : Fin 6) (ctl : BitVec 120) (flits : List (BitVec 2048)) (errs : List (Fin 6 × Fin 544))
    (s : State) : Host.Outcome State Fault Refusal :=
  let p := p.val
  if (s.port p).st ≠ .up then .next s
  else
    let s := s.frameFec p errs
    let s :=
      if cwErrs errs 0 > 15 then s
      else
        let q := s.port p
        let gen := bits ctl 33 4
        let force := q.masks.get q.rxForce gen
        let s := s.setPort p { q with
          cred := (upTo 4).map (fun v => (v, bits ctl (40 + 16 * v) 16)), rxGen := gen, rxForce := force }
        s.acknowledge p (bits ctl 16 16) (bit ctl 32)
    .next ((flits.take 15).zipIdx.foldl (fun s x => s.takeFlit p (slotOk errs x.2) x.1) s)

/-! ### Transmitting (R400, R433, R438) -/

/-- Credit for a VC (R405). -/
def Port.credit (q : Port) (v : Nat) : Nat :=
  q.peerSize.get 0 v - (q.sent.get 0 v + 65536 - q.cred.get 0 v) % 65536

/-- Whether the fragment at the head of a VC may send its next flit (R433). -/
def Port.dataReady (q : Port) (v : Nat) : Bool :=
  match q.outq.get [] v with
  | [] => false
  | f :: _ => f.started || decide (f.flits.length + (if f.enter then 64 else 0) ≤ q.credit v)

/-- The VC that fills the next DATA slot (R438); SLACK counts in units of 16 flits. -/
def State.nextVc (s : State) (p : Nat) : Option Nat :=
  let q := s.port p
  let slack := s.rec_ (portRec p + 4) 0 32
  let floor := decide (s.msg.vc2.get 0 p < 16 * slack)
  ([3, 1] ++ (if floor then [2] else []) ++ [0, 2]).find? (fun v => q.dataReady v)

/-- What a slot carries, the SEQ and CRC filled in. -/
def State.slotFlit (s : State) (x : SeqFlit) : BitVec 2048 :=
  let y := match x.base with
    | some b => setBits x.flit 256 32 (min (2 ^ 32 - 1) ((s.linkTime : Int) - b).toNat)
    | none => x.flit
  sealFlit x.seq y

/-- A new sequenced flit enters the retry buffer. -/
def State.firstSend (s : State) (p : Nat) (x : SeqFlit) : BitVec 2048 × State :=
  let q := s.port p
  let x := { x with seq := q.nextSeq }
  let n := q.txSub + 1
  let s := if n ≥ 2 ^ 20 then s.bump (lnkBase p + 0x40) 1 else s
  (s.slotFlit x, s.setPort p { q with nextSeq := (q.nextSeq + 1) % 65536, retry := q.retry ++ [x], txSub := n % 2 ^ 20 })

/-- Takes the next DATA flit of VC `v`; with the last flit of a message its 66 turns begin (R445). -/
def State.takeData (s : State) (p v : Nat) : Option (BitVec 2048) × State :=
  let q := s.port p
  match q.outq.get [] v with
  | [] => (none, s)
  | f :: rest =>
    match f.flits with
    | [] => (none, s.setPort p { q with outq := q.outq.put v rest })
    | x :: fs =>
      let head := if fs.isEmpty then rest else { f with flits := fs, started := true } :: rest
      let s := s.setPort p { q with outq := q.outq.put v head, sent := q.sent.upd 0 v (fun n => (n + 1) % 65536) }
      let s := if v = 2 then s.setMsg { s.msg with vc2 := s.msg.vc2.upd 0 p (· + 1) } else s
      match (if fs.isEmpty && f.last then f.own else none) with
      | some k =>
        match s.msg.out.find? k with
        | some m => (some x, s.setMsg { s.msg with out := s.msg.out.put k { m with sentTurn := some s.turn.ticks } })
        | none => (some x, s)
      | none => (some x, s)

/-- The content of one slot. -/
def State.fillSlot (s : State) (p : Nat) : BitVec 2048 × State :=
  let q := s.port p
  let now := s.linkTime
  if s.now4 - q.lastBeat ≥ 3960 then
    let x := ctlFlit 0 [(8, 8, now), (0x10, 8, q.peerBeat), (0x18, 4, if q.peerBeat = 0 then 0 else now - q.peerAt), (0x1C, 4, s.myId + p * 2 ^ 20)]
    (sealFlit 0 (setBits x 0 4 3), s.setPort p { q with lastBeat := s.now4 })
  else match q.resend with
    | x :: r => (s.slotFlit x, s.setPort p { q with resend := r })
    | [] =>
      if q.retry.length ≥ 16384 then (sealFlit 0 0, s)
      else match q.ctl with
        | x :: r => State.firstSend (s.setPort p { q with ctl := r }) p x
        | [] =>
          match (if s.rec_ (portRec p + 8) 1 1 = 1 then none else s.nextVc p) with
          | none => (sealFlit 0 0, s)
          | some v =>
            match s.takeData p v with
            | (some x, s) => s.firstSend p { flit := x }
            | (none, s) => (sealFlit 0 0, s)

/-- `n` slots in order. -/
def State.fillSlots (s : State) (p : Nat) : Nat → List (BitVec 2048) × State
  | 0 => ([], s)
  | n + 1 =>
    let (x, s) := s.fillSlot p
    let (r, s) := s.fillSlots p n
    (x :: r, s)

/-- Frame control of the next frame (R397). -/
def State.frameCtl (s : State) (p : Nat) : Nat :=
  let q := s.port p
  q.fnum + q.expSeq * 2 ^ 16 + b2n q.nakDue * 2 ^ 32 + q.txGen * 2 ^ 33
    + (upTo 4).foldl (fun a v => a + q.freed.get 0 v % 65536 * 2 ^ (40 + 16 * v)) 0

/-- FRAME_TRANSMIT (R400). -/
def execFrameTransmit (p : Fin 6) (s : State) : Host.Outcome State Fault Refusal :=
  let p := p.val
  if (s.port p).st ≠ .up then .next s
  else
    let ctl := s.frameCtl p
    let q := s.port p
    let s := s.setPort p { q with fnum := (q.fnum + 1) % 65536, nakDue := false }
    let (fs, s) := s.fillSlots p 15
    .next (s.emit (.frame p ctl fs))

end Sys2Proof.Machine
end

