-- ==== Sys2Proof/Machine/Shutter.lean ====
section
/-!
DEFINITION. Machine/Shutter.lean: Shutter records, keepers and banks (R547 to R550), and the SHUT command (R551 to R561).
What a COMMIT does to a take is here too; Machine/Sill.lean calls it.
-/
namespace Sys2Proof.Machine

def State.hf (s : State) (i off lo w : Nat) : Nat := s.rec_ (shutRec i + off) lo w
def State.shutter (s : State) (i : Nat) : ShutSt := s.shut.get {} i
def State.setShut (s : State) (i : Nat) (x : ShutSt) : State := { s with shut := s.shut.put i x }

def State.shutState (s : State) (i : Nat) : Nat := s.hf i 0 0 2
def State.shutPart (s : State) (i : Nat) : Nat := s.hf i 0 12 4
def State.shutGroup (s : State) (i : Nat) : Nat := s.hf i 0 16 6
def State.keeps (s : State) (i : Nat) : Nat := s.hf i 4 12 12

/-- Bytes of a bank, and where bank `b` starts (R548). -/
def State.bankBytes (s : State) (i : Nat) : Nat := 4096 * (s.hf i 0x18 0 32 + s.hf i 0x1C 0 32 + s.hf i 0x20 0 9)
def State.bankAddr (s : State) (i b : Nat) : Nat := s.hf i 8 0 48 + b * s.bankBytes i

def State.bankState (s : State) (i b : Nat) : Nat := s.hf i (0x38 + 0x10 * b) 0 2
def State.setBank (s : State) (i b st : Nat) : State := s.setRec (shutRec i + 0x38 + 0x10 * b) 0 2 st

/-- Both banks EMPTY. -/
def State.emptyBanks (s : State) (i : Nat) : State := (s.setBank i 0 0).setBank i 1 0

/-- The module at position `q` of this module's replica, as an entry of the group's member table, and its identifier. -/
def State.replicaEntry (s : State) (g q : Nat) : Nat := s.gf g 8 12 12 * s.inner g + q
def State.replicaId (s : State) (g q : Nat) : Nat := s.member (s.gf g 0x10 0 48) (s.replicaEntry g q)

/-- R547 for one other position: at least two hops away, and in another failure domain. -/
def State.farEnough (s : State) (i q : Nat) : Bool :=
  let g := s.shutGroup i
  let dom (q : Nat) : Nat := s.peekN (s.hf i 0x10 0 48 + 2 * s.replicaEntry g q) 2
  decide (s.hops s.myId (s.replicaId g q) ≥ 2) && dom q != dom (s.gf g 8 0 12)

/-- The position kept, and the keeper's (R547). -/
def State.keptPos (s : State) (i : Nat) : Nat :=
  let g := s.shutGroup i
  (s.gf g 8 0 12 + s.inner g - s.hf i 4 0 12) % s.inner g
def State.keeperPos (s : State) (i : Nat) : Nat :=
  let g := s.shutGroup i
  (s.gf g 8 0 12 + s.hf i 4 0 12) % s.inner g

/-- The conditions of R550. -/
def State.shutOk (s : State) (i : Nat) : Bool :=
  let g := s.shutGroup i
  let p := s.shutPart i
  let rec_ := s.hf i 0 22 4
  s.groupState g == 1 && s.groupPart g == p && s.rec_ (stepRec rec_) 12 4 == p
    && (upTo 4).all (fun j => j == i || s.shutState j == 0 || s.hf j 0 22 4 != rec_)
    && decide (1 ≤ s.hf i 4 0 12 ∧ s.hf i 4 0 12 < s.inner g)
    && s.farEnough i (s.keptPos i) && s.farEnough i (s.keeperPos i)
    && s.inPart p (s.bankAddr i 0) (2 * s.bankBytes i)

/-- ENABLE of a Shutter record (R550). -/
def State.enableShutter (s : State) (i : Nat) : State :=
  let a := shutRec i
  if s.shutState i ≠ 0 then s
  else if !s.shutOk i then s.setRec a 3 1 1
  else
    let now := (s.hf i 8 0 48, s.hf i 0x18 0 32, s.hf i 0x1C 0 32, s.hf i 0x20 0 9, s.keptPos i)
    let x := s.shutter i
    let same := x.last == some now
    let full (b : Nat) : Bool := s.bankState i b == 3
    let kept := same && (full 0 || full 1)
    let s := [0, 1].foldl (fun s b => if same && s.bankState i b == 3 then s else s.setBank i b 0) s
    let s := ((((s.setRec a 0 2 1).setRec a 2 1 1).setRec a 3 1 0).setRec (a + 4) 12 12 (s.keptPos i))
    let s := if kept then s.bumpRec (a + 0x64) 0 32 1 else s
    s.setShut i { x with
      last := some now, caps := [], shutDur := [], ordDur := [], lastTurn := none, steps := 0
      restores := if kept then 0 :: x.restores else x.restores }

/-- ENABLE = 0 (R550): OFF, the banks kept. -/
def State.disableShutter (s : State) (i : Nat) : State :=
  let a := shutRec i
  ((s.setRec a 0 2 0).setRec a 2 1 0)

/-- A write of word 0 of a Shutter record (R549): PART and STREAM_OK are Joinery's. -/
def State.writeShut0 (s : State) (w : Writer) (i : Nat) (v : Word) : State :=
  let a := shutRec i
  let s := if w = .joinery then (s.setRec a 12 4 (bits v 12 4)).setRec a 5 1 (bits v 5 1) else s
  let s := (s.setRec a 4 1 (bits v 4 1)).setRec a 16 10 (bits v 16 10)
  if bit v 2 then s.enableShutter i else s.disableShutter i

def State.shutWrite (s : State) (w : Writer) (i : Nat) (v : Word) : State :=
  if s.writesFor w (s.shutPart i) then s.writeShut0 w i v else s

/-- SHUTTER_ENABLE (R550). -/
def execShutterEnable (w : Writer) (i : Fin 4) (v : Word) (s : State) : Host.Outcome State Fault Refusal :=
  .next (s.shutWrite w i.val (setBits v 2 1 1))

/-- SHUTTER_DISABLE (R550). -/
def execShutterDisable (w : Writer) (i : Fin 4) (v : Word) (s : State) : Host.Outcome State Fault Refusal :=
  .next (s.shutWrite w i.val (setBits v 2 1 0))

/-! ### The SHUT command -/

/-- The running SHUT command of a tag with operation `op`, not yet begun: its run, its descriptor, its record. -/
def State.shutRun (s : State) (l tag op : Nat) : Option Run :=
  match (s.core l).run tag with
  | some r => if Desc.cls r.cmd.desc == 9 && Desc.f r.cmd.desc 0x10 0 3 == op && !r.issuedAll && !r.done then some r else none
  | none => none

def shutIdx (d : Desc) : Nat := d.f 0x10 3 2

/-- Stops the SERVE and STREAM commands that read a bank (R552). -/
def State.loseBank (s : State) (i b : Nat) : State :=
  let rs := (s.shutter i).readers.filter (fun r => r.2.2 == b)
  let s := rs.foldl (fun s r => s.finish r.1 r.2.1 0xE5) s
  if rs.isEmpty then s else s.raise 4 2

/-- A take starts in bank `b` (R552). -/
def State.take_ (s : State) (i b step : Nat) : State :=
  let a := shutRec i
  let s := (s.setBank i b 1).loseBank i b
  let s := ((s.setRec (a + 0x50) 0 64 0).setRec (a + 0x2C) 0 32 step).setRec a 0 2 2
  s.setShut i { s.shutter i with bank := b, sendOk := false, failed := false }

/-- The filling bank that a take chooses (R552). -/
def State.chooseBank (s : State) (i : Nat) : Nat :=
  let c0 := s.bankState i 0 = 3
  let c1 := s.bankState i 1 = 3
  if c0 ∧ c1 then (if s.hf i 0x40 0 32 < s.hf i 0x30 0 32 then 1 else 0) else if c0 then 1 else 0

/-- BEGIN (R552). -/
def execBegin_ (c : Fin 128) (tag : Fin 4096) (s : State) : Host.Outcome State Fault Refusal :=
  match s.shutRun c.val tag.val 0 with
  | none => .next s
  | some r =>
    let d : Desc := r.cmd.desc
    let i := shutIdx d
    let step := d.f 0x14 0 32
    let restart := s.shutState i == 2 && s.hf i 0x2C 0 32 == step
    let takes := restart || (s.shutState i == 1 && decide (step ≥ s.hf i 0x28 0 32))
    let b := if restart then (s.shutter i).bank else s.chooseBank i
    let s := if takes then s.take_ i b step else s
    let plan := if takes then 1 + b * 2 + step * 2 ^ 32 else step * 2 ^ 32
    .next ((s.writeHbm (some r.cmd.part) (d.f 0x18 0 64) (toBytes 8 plan)).finish c.val r.cmd.id 0)

/-- A take of step `step` is in progress. -/
def State.taking (s : State) (i step : Nat) : Bool := s.shutState i == 2 && s.hf i 0x2C 0 32 == step

/-- CAPTURE (R553): SHUT_LATE when a fragment of the instance from the kept position has already arrived. -/
def execCapture (c : Fin 128) (tag : Fin 4096) (s : State) : Host.Outcome State Fault Refusal :=
  match s.shutRun c.val tag.val 1 with
  | none => .next s
  | some r =>
    let d : Desc := r.cmd.desc
    let i := shutIdx d
    let g := d.f 0x28 0 6
    let n := d.f 0x28 6 10
    let k := s.keeps i
    let here := s.msg.ctxs.any (fun x => x.kind == 1 && x.arg % 2 ^ 28 == g + n * 2 ^ 6 + k * 2 ^ 16)
      || (match s.inst? g n with
        | some x => x.got.contains k
        | none => false)
    if !s.taking i (d.f 0x14 0 32) then .next (s.finish c.val r.cmd.id 0xE1)
    else if here then .next (s.finish c.val r.cmd.id 0xE2)
    else
      let x := s.shutter i
      let cap : Capture := {
        core := c.val, id := r.cmd.id, group := g, inst := n, epoch := d.f 0x2A 0 16, lo := s.bankAddr i x.bank + d.f 0x18 0 64, elems := d.f 0x30 0 32 + 1 }
      .next ((s.setShut i { x with caps := x.caps ++ [cap] }).setRun c.val { r with issuedAll := true })

/-- Bytes enter the filling bank: GOT counts them, and the bank is FILLED when it is whole (R555). -/
def State.addGot (s : State) (i n : Nat) : State :=
  let a := shutRec i
  let s := s.setRec (a + 0x50) 0 64 (s.hf i 0x50 0 64 + n)
  if s.hf i 0x50 0 64 = s.bankBytes i then s.setBank i (s.shutter i).bank 2 else s

/-- A gather fragment of a captured instance from the kept position arrives (R553): its elements are kept unchanged. -/
def State.captureFrag (s : State) (g n shard sfmt first : Nat) (data : List Byte) (bad : List (Nat × Nat)) : State :=
  s.shut.foldl (fun s x =>
    match x.2.caps.find? (fun c => c.group == g && c.inst == n && c.epoch == s.groupEpoch g) with
    | none => s
    | some c =>
      if shard ≠ s.keeps x.1 then s
      else
        let without := { x.2 with caps := x.2.caps.filter (fun y => y.id != c.id) }
        if sfmt ≠ 0 then (s.setShut x.1 without).finish c.core c.id 0xE6
        else
          let s := (s.writeBad (some (s.shutPart x.1)) (c.lo + 4 * first) data bad).addGot x.1 data.length
          let n := c.written + data.length / 4
          if n ≥ c.elems then (s.setShut x.1 without).finish c.core c.id 0
          else s.setShut x.1 { x.2 with caps := x.2.caps.map (fun y => if y.id = c.id then { c with written := n } else y) }) s

/-- A (source, bytes, address) cut into parts that one message can carry (R437). -/
def messageParts (x : Nat × Nat × Nat) : List (Nat × Nat × Nat) :=
  let m := fragMax * 2 ^ 20
  (upTo (ceilDiv x.2.1 m)).map (fun k => (x.1 + k * m, min m (x.2.1 - k * m), x.2.2 + k * m))

/-- Ranges of HBM go to `dest` as WRITE messages of a command, each as few as can carry it (R454, R554, R560). -/
def State.writesTo (s : State) (l : Nat) (r : Run) (dest vc arg : Nat) (rs : List (Nat × Nat × Nat)) : State :=
  let rs := rs.flatMap messageParts
  let s := s.setRun l { r with outstanding := rs.length, issuedAll := true }
  if rs.isEmpty then s.finish l r.cmd.id 0
  else rs.foldl (fun s x =>
    let m := s.readHbm (some r.cmd.part) x.1 x.2.1
    let (ok, s) := m.st.send
      { dest := dest, kind := 0, vc := vc, addr := x.2.2, arg := arg, owner := .cmd l r.cmd.id, bad := s.badIn x.1 x.2.1 } m.bytes
    if ok then s else s.cmdDone l r.cmd.id 0 0x94) s

/-- SEND (R554): moments and auxiliary range go to the keeper's filling bank on VC2, never provisional. -/
def execSend_ (c : Fin 128) (tag : Fin 4096) (s : State) : Host.Outcome State Fault Refusal :=
  match s.shutRun c.val tag.val 2 with
  | none => .next s
  | some r =>
    let d : Desc := r.cmd.desc
    let i := shutIdx d
    let step := d.f 0x14 0 32
    if !s.taking i step then .next (s.finish c.val r.cmd.id 0xE1)
    else
      let w := 4096 * s.hf i 0x18 0 32
      let m := 4096 * s.hf i 0x1C 0 32
      let bank := s.bankAddr i (s.shutter i).bank
      let dest := s.replicaId (s.shutGroup i) (s.keeperPos i)
      .next (s.writesTo c.val r dest 2 (2 + step * 2 ^ 32)
        [(d.f 0x18 0 64, m, bank + w), (d.f 0x20 0 48, 4096 * s.hf i 0x20 0 9, bank + w + m)])

/-- Bytes that a SERVE or STREAM reads: the bank, or its weights alone. -/
def State.bankPart (s : State) (i : Nat) (d : Desc) : Nat :=
  if d.f 0x10 6 1 = 1 then 4096 * s.hf i 0x18 0 32 else s.bankBytes i

/-- SERVE (R560): a COMPLETE bank goes to a module through a write window. -/
def execServe (c : Fin 128) (tag : Fin 4096) (s : State) : Host.Outcome State Fault Refusal :=
  match s.shutRun c.val tag.val 3 with
  | none => .next s
  | some r =>
    let d : Desc := r.cmd.desc
    let i := shutIdx d
    let b := d.f 0x10 5 1
    if s.bankState i b ≠ 3 then .next (s.finish c.val r.cmd.id 0xE4)
    else
      let x := s.shutter i
      let s := (s.setShut i { x with readers := (c.val, r.cmd.id, b) :: x.readers }).setRec (shutRec i + 0x38 + 0x10 * b) 2 1 1
      .next (s.writesTo c.val r (d.f 0x2C 0 20) 0 0 [(s.bankAddr i b, s.bankPart i d, d.f 0x18 0 48)])

/-- STREAM (R561): a header and a COMPLETE bank go to host memory through H1. -/
def execStream (c : Fin 128) (tag : Fin 4096) (s : State) : Host.Outcome State Fault Refusal :=
  match s.shutRun c.val tag.val 4 with
  | none => .next s
  | some r =>
    let d : Desc := r.cmd.desc
    let i := shutIdx d
    let b := d.f 0x10 5 1
    let g := s.shutGroup i
    if s.bankState i b ≠ 3 ∨ s.hf i 0 5 1 = 0 then .next (s.finish c.val r.cmd.id 0xE4)
    else
      let head := [s.hf i (0x30 + 0x10 * b) 0 32, s.hf i (0x34 + 0x10 * b) 0 32, s.groupEpoch g, s.keeps i, s.inner g - 1,
        s.outer g - 1, s.hf i 0x18 0 32, s.hf i 0x1C 0 32, s.hf i 0x20 0 9].flatMap (toBytes 4) ++ List.replicate 220 0
      let m := s.readHbm (some r.cmd.part) (s.bankAddr i b) (s.bankPart i d)
      let a := d.f 0x18 0 64
      .next (((m.st.emit (.hostWrite 1 a head)).emit (.hostWrite 1 (a + 256) m.bytes)).finish c.val r.cmd.id (if m.bad then 0x26 else 0))

/-! ### Shutter WRITEs (R554) -/

/-- The record that takes a Shutter WRITE of `src` for step `step` into [addr, addr + n). -/
def State.shutTakes (s : State) (src step addr n : Nat) : Option Nat :=
  (upTo 4).find? (fun i =>
    let lo := s.bankAddr i (s.shutter i).bank
    s.taking i step && s.replicaId (s.shutGroup i) (s.keeps i) == src
      && decide (lo + 4096 * s.hf i 0x18 0 32 ≤ addr ∧ addr + n ≤ lo + s.bankBytes i))

/-- The record in whose LATE a discarded Shutter WRITE counts: the one that keeps its source. -/
def State.shutLate (s : State) (src : Nat) : State :=
  let s := s.raise 4 3
  match (upTo 4).find? (fun i => s.shutState i != 0 && s.replicaId (s.shutGroup i) (s.keeps i) == src) with
  | some i => s.bumpRec (shutRec i + 0x60) 0 32 1
  | none => s

/-! ### What an outcome of the step does (R555, R556, R558) -/

/-- The record whose snapshots step record `j` decides, if one is enabled. -/
def State.shutOf (s : State) (j : Nat) : Option Nat := (upTo 4).find? (fun i => s.shutState i != 0 && s.hf i 0 22 4 == j)

/-- TAKE and KEPT terms of this module (R555). -/
def State.takeTerm (s : State) (j : Nat) : Bool :=
  match s.shutOf j with
  | some i => s.shutState i == 2
  | none => false
def State.keptTerm (s : State) (j : Nat) : Bool :=
  match s.shutOf j with
  | some i =>
    let x := s.shutter i
    s.shutState i == 2 && s.bankState i x.bank == 2 && x.sendOk && !x.failed
  | none => false

/-- INTERVAL by R558, from the turns of the last steps: C = (mean of Shutter steps − mean of ordinary) / mean of ordinary,
and λ = (f + 1) / n. -/
def shutInterval (shut ord : List Nat) (f n : Nat) : Nat :=
  let sum (l : List Nat) : Nat := l.foldl (· + ·) 0
  let a := sum shut * ord.length
  let b := sum ord * shut.length
  if a ≤ b ∨ b = 0 then 20
  else min 5000 (max 20 ((isqrt (8 * (a - b) * n / (b * (f + 1))) + 1) / 2))

/-- A take ends without a snapshot (R556). -/
def State.takeFails (s : State) (i : Nat) : State :=
  let a := shutRec i
  if s.shutState i ≠ 2 then s
  else
    let x := s.shutter i
    let s := ((s.setBank i x.bank 0).bumpRec (a + 0x5C) 0 32 1).raise 4 1
    let s := x.caps.foldl (fun s c => s.finish c.core c.id 0xE1) s
    (s.setShut i { s.shutter i with caps := [] }).setRec a 0 2 1

/-- An outcome of step record `j` that is no commit is the turn from which the next step's duration counts (R558). -/
def State.shutMark (s : State) (j : Nat) : State :=
  match s.shutOf j with
  | some i => s.setShut i { s.shutter i with lastTurn := some s.turnNo }
  | none => s

/-- A commit without ABORT of a step (R556, R558): `gen` is the generation before it. -/
def State.shutCommit (s : State) (j gen : Nat) (ok fail : Bool) : State :=
  match s.shutOf j with
  | none => s
  | some i =>
    let a := shutRec i
    let x := s.shutter i
    let taking := s.shutState i == 2
    let n := min (x.steps + 1) 100000
    let x := { x with
      steps := x.steps + 1, lastTurn := some s.turnNo
      shutDur := match x.lastTurn with
        | some t => if taking then ((s.turnNo - t) :: x.shutDur).take 8 else x.shutDur
        | none => x.shutDur
      ordDur := match x.lastTurn with
        | some t => if taking then x.ordDur else ((s.turnNo - t) :: x.ordDur).take 8
        | none => x.ordDur }
    let s := s.setShut i x
    if !taking then s
    else if ok then
      let b := x.bank
      let step := s.hf i 0x2C 0 32
      let s := ((s.setBank i b 3).setRec (a + 0x30 + 0x10 * b) 0 32 step).setRec (a + 0x34 + 0x10 * b) 0 32 gen
      let s := (s.setRec (a + 0x28) 0 32 (step + s.hf i 0x24 0 13)).bumpRec (a + 0x58) 0 32 1
      let f := (x.restores.filter (fun t => decide (x.steps ≤ t + n))).length
      let s := if s.hf i 0 4 1 = 1 then s else s.setRec (a + 0x24) 0 13 (shutInterval x.shutDur x.ordDur f n)
      (s.raise 4 0).setRec a 0 2 1
    else if fail then s.takeFails i
    else s.setRec a 0 2 1

/-- A group switch that changes INNER or QPOS (R550). -/
def State.shutSwitch (s : State) (g : Nat) : State :=
  (upTo 4).foldl (fun s i =>
    if s.shutGroup i = g ∧ s.shutState i ≠ 0 ∧ (s.gf g 0x1C 0 12 ≠ s.gf g 4 0 12 ∨ s.gf g 0x20 0 12 ≠ s.gf g 8 0 12) then
      (s.emptyBanks i).disableShutter i
    else s) s

end Sys2Proof.Machine
end

