-- ==== Sys2Proof/Machine/Prov.lean ====
section
/-!
DEFINITION. Machine/Prov.lean: provisional entries, received and derived (R450, R451, R516 to R518).
-/
namespace Sys2Proof.Machine

def State.setSill (s : State) (x : SillSt) : State := { s with sill := x }

/-- The entry of a received message. -/
def State.provKey (s : State) (src mtag : Nat) : Option Nat :=
  (List.find? (fun (e : Nat × ProvEnt) => e.2.cmd.isNone && e.2.src == src && e.2.mtag == mtag) s.sill.prov).map (·.1)

/-- A node of a reduction no longer waits for command `cmd` or entry `link` (R157). -/
def NodeVal.cut (cmd link : Option Nat) (v : NodeVal) : NodeVal :=
  { v with cmds := v.cmds.filter (fun i => some i != cmd), links := v.links.filter (fun i => some i != link) }

def State.cutNodes (s : State) (cmd link : Option Nat) : State :=
  let vals (t : Tab NodeVal) : Tab NodeVal := t.map (fun v => (v.1, v.2.cut cmd link))
  { s with
    reds := s.reds.map (fun t => (t.1, { t.2 with nodes := vals t.2.nodes }))
    groups := { s.groups with insts := s.groups.insts.map (fun x => (x.1, { x.2 with
      vals := vals x.2.vals
      right := x.2.right.map (fun r => (r.1, if r.2.link = link then { r.2 with link := none } else r.2)) })) } }

/-- Contributors of reductions of which a node depends on an entry of `bad`. -/
def State.dependents (s : State) (bad : List Nat) : List (Nat × Nat) :=
  let hit (t : Tab NodeVal) : Bool := t.any (fun v => v.2.links.any bad.contains)
  (s.reds.filter (fun t => hit t.2.nodes)).flatMap (fun t => t.2.cores)
    ++ (s.groups.insts.filter (fun x => hit x.2.vals || x.2.right.any (fun r => (r.2.link.map bad.contains).getD false))).flatMap (fun x =>
      x.2.contribs)

/-- Drops identity `i` from every list of links: commands that ran or run, derived entries, and nodes of reductions. -/
def State.unlink (s : State) (i : Nat) : State :=
  let cut (l : List Nat) : List Nat := l.filter (· != i)
  let s := s.setSill { s.sill with
    retired := s.sill.retired.map (fun e => { e with links := cut e.links })
    prov := s.sill.prov.map (fun e => (e.1, { e.2 with links := cut e.2.links })) }
  let s := s.cutNodes none (some i)
  { s with log := s.log.map (fun k => (k.1, { k.2 with running := k.2.running.map (fun r => { r with links := cut r.links }) })) }

/-- A confirmed entry is freed (R451), with every derived entry whose links are then all confirmed (R516); messages that
waited for them alone are confirmed. `fuel` bounds the chain. -/
def State.freeProv (s : State) (i : Nat) : Nat → State
  | 0 => s
  | fuel + 1 =>
    let s := s.setSill { s.sill with prov := s.sill.prov.drop i }
    let s := (s.unlink i).confirmMsgs none (some i)
    let done := s.sill.prov.filter (fun e => e.2.cmd.isSome && e.2.links.isEmpty)
    done.foldl (fun s e => s.freeProv e.1 fuel) s

/-- The entries linked to `is`, directly or through others. -/
def State.linkedTo (s : State) (is : List Nat) : Nat → List Nat
  | 0 => is
  | fuel + 1 =>
    let more := (s.sill.prov.filter (fun e => !is.contains e.1 && e.2.links.any is.contains)).map (·.1)
    if more.isEmpty then is else s.linkedTo (is ++ more) fuel

/-- A provisional entry is retracted (R517): what is linked to it is tainted and freed, the commands that read it never
cross, and messages made from it are retracted. -/
def State.taint (s : State) (i : Nat) : State :=
  let bad := s.linkedTo [i] 4096
  let hit (l : List Nat) : Bool := l.any bad.contains
  let cmds := s.sill.retired.filter (fun e => hit e.links)
  let s := s.setSill { s.sill with
    prov := s.sill.prov.filter (fun e => !bad.contains e.1), retired := s.sill.retired.filter (fun e => !hit e.links)
    outcomes := s.sill.outcomes ++ cmds.map (fun e => (e.id, e.core, e.ctx, 0x36)), lost := s.sill.lost ++ cmds.filterMap (·.prog) }
  let s : State := { s with log := s.log.map (fun k => (k.1, { k.2 with
    running := k.2.running.map (fun r =>
      if hit r.links || (s.dependents bad).contains (k.1, r.cmd.id) then { r with tainted := true } else r) })) }
  let s := bad.foldl (fun s b => s.retractMsgs none (some b)) s
  let s := cmds.foldl (fun s e => s.retractMsgs (some e.id) none) s
  s.raise 3 3

/-- Whether another provisional entry is free (R451). -/
def State.provRoom (s : State) : Bool := decide (s.sill.prov.length < 4096)

/-- A fragment of a provisional message wrote `n` bytes at `a`: its entry covers the whole written range (R451). -/
def State.noteProv (s : State) (src mtag a n : Nat) (complete : Bool) : Nat × State :=
  let k := (s.provKey src mtag).getD s.sill.nextProv
  let e := s.sill.prov.get { src := src, mtag := mtag, lo := a } k
  let lo := if e.n = 0 then a else min e.lo a
  let hi := if e.n = 0 then a + n else max (e.lo + e.n) (a + n)
  let e := { e with lo := lo, n := hi - lo, turn := s.turn.ticks, complete := e.complete || complete }
  (k, s.setSill { s.sill with prov := s.sill.prov.put k e, nextProv := max s.sill.nextProv (k + 1) })

/-- A complete and confirmed entry is freed. -/
def State.settleProv (s : State) (k : Nat) : State :=
  match s.sill.prov.find? k with
  | some e => if e.complete && e.confirmed then s.freeProv k 4096 else s
  | none => s

/-- A pass whose block for hop `provHop` was provisional sees it confirmed, or retracted: then it waits for the replacement
(R281, R293). -/
def State.ringProv (s : State) (k : Nat) (retracted : Bool) : State :=
  s.rings.foldl (fun s x =>
    if x.2.prov = some k then
      let s := s.setRing x.1 { s.ring x.1 with prov := none, await := retracted }
      if s.ringLive x.1 then (s.ringTell x.1).ringSend x.1 else s
    else s) s

end Sys2Proof.Machine
end

