-- ==== Sys2Proof/Machine/Receive.lean ====
section
/-!
DEFINITION. Machine/Receive.lean: what a module does with the fragments that reach it (R431 to R453, R285, R287, R291, R326,
R331, R333, R340): each command acts on the fragment at the head of one receive buffer.
-/
namespace Sys2Proof.Machine

/-! ### The head of a receive buffer -/

/-- Flits of the fragment at the head of VC `vc` of port `p`, once its last flit is there. -/
def State.headFlits (s : State) (p vc : Nat) : Option (List (BitVec 2048)) :=
  let fs := (s.port p).rx.get [] vc
  match List.findIdx? (fun (x : BitVec 2048) => flitPos x == 0 || flitPos x == 3) fs with
  | some i => some (fs.take (i + 1))
  | none => none

/-- The fragment at the head leaves its buffer, whose space returns to the sender as credit (R405). -/
def State.consume (s : State) (p vc n : Nat) : State :=
  let q := s.port p
  s.setPort p { q with rx := q.rx.upd [] vc (·.drop n), freed := q.freed.upd 0 vc (· + n) }

/-- Acts on the head fragment when it is one of kind `kind` for this module; `act` answers none while the fragment must
wait in its buffer. -/
def State.onHead (s : State) (p vc kind : Nat) (act : List (BitVec 2048) → Frag → Option State) : Host.Outcome State Fault Refusal :=
  match s.headFlits p vc with
  | none => .next s
  | some fs =>
    let f := fragOf fs
    if f.dest ≠ s.myId ∨ f.kind ≠ kind then .next s
    else match act fs f with
      | some s => .next (s.consume p vc fs.length)
      | none => .next s

/-! ### Reassembly (R448, R449, R451) -/

def sameMsg (src mtag : Nat) (x : Nat × Nat × Nat) : Bool := x.1 == src && x.2.1 == mtag

def State.ctx? (s : State) (src mtag : Nat) : Option MsgCtx := s.msg.ctxs.find? (fun c => c.src == src && c.mtag == mtag)

def State.dropCtx (s : State) (src mtag : Nat) : State :=
  s.setMsg { s.msg with ctxs := s.msg.ctxs.filter (fun c => !(c.src == src && c.mtag == mtag)) }

/-- A message that is refused is answered with UNREACH once (R445). -/
def State.deny (s : State) (f : Frag) : State :=
  let told := s.msg.denied.any (sameMsg f.src f.mtag)
  if told then s
  else (s.setMsg { s.msg with denied := s.msg.denied ++ [(f.src, f.mtag, s.turn.ticks)] }).sayUnreach f.src f.mtag s.myId

/-- How reassembly takes a fragment: it waits for a context or a provisional entry, it is discarded, or it is taken. -/
inductive Intake where
  | wait
  | drop (s : State)
  | take
  deriving DecidableEq, Repr

/-- What becomes of fragment `f`. A module that is not aligned refuses a reserved message (R30) by answering with UNREACH (DESIGN
CHOICE, notes/assumptions/65.md). -/
def State.intake (s : State) (f : Frag) : Intake :=
  if s.msg.tombs.any (sameMsg f.src f.mtag) then .drop (s.bumpRec (msgCtl + 0x24) 0 32 1)
  else if s.msg.dead.any (sameMsg f.src f.mtag) then .drop (s.bumpRec (msgCtl + 0x34) 0 32 1)
  else if (s.ctx? f.src f.mtag).isNone && f.res && !s.isAligned then .drop (s.deny f)
  else if (s.ctx? f.src f.mtag).isNone && decide (s.msg.ctxs.length ≥ 16384) then .wait
  else if f.prov && (s.provKey f.src f.mtag).isNone && !s.provRoom then .wait
  else .take

/-- Fragment `f` counts in its context, which opens with the first that arrives. -/
def State.note (s : State) (f : Frag) (arg : Nat) (change : MsgCtx → MsgCtx) : MsgCtx × State :=
  let c := (s.ctx? f.src f.mtag).getD { src := f.src, mtag := f.mtag, nfrag := f.nfrag, kind := f.kind, arg := arg, first := s.turn.ticks }
  let c := change { c with got := if c.got.contains f.frag then c.got else f.frag :: c.got, turn := s.turn.ticks }
  let s := s.dropCtx f.src f.mtag
  (c, s.setMsg { s.msg with ctxs := s.msg.ctxs ++ [c] })

/-- All fragments are there. -/
def MsgCtx.whole (c : MsgCtx) : Bool := decide (c.got.length ≥ c.nfrag + 1)

/-- A message is complete (R442, R444): its context closes, DONE goes to its source; a reserved message that took longer
than a turn counts in RES_LATE. -/
def State.completeMsg (s : State) (f : Frag) (c : MsgCtx) : State :=
  let s := (s.dropCtx f.src f.mtag).tell f.src 4 0 f.mtag
  if f.res && decide (s.turn.ticks > c.first + 1) then s.bumpRec (msgCtl + 0x30) 0 32 1 else s

/-- The provisional entry of a fragment that wrote `n` bytes at `a` (R451); a complete one that is confirmed is freed. -/
def State.fragProv (s : State) (f : Frag) (a n : Nat) (whole : Bool) : Option Nat × State :=
  if !f.prov then (none, s)
  else
    let (k, s) := s.noteProv f.src f.mtag a n whole
    let s := s.settleProv k
    ((s.sill.prov.find? k).map (fun _ => k), s)

/-! ### Windows and WRITE (R446, R447) -/

def winRec (n : Nat) : Nat := 0xF000140800 + 0x20 * n

/-- The partition of an enabled window that names the source and holds the range, with the right in bit `right`. -/
def State.window (s : State) (src right a n : Nat) : Option Nat :=
  ((upTo 64).find? (fun w =>
    let b := winRec w
    let base := s.rec_ (b + 8) 0 48
    s.rec_ b 0 1 == 1 && s.rec_ b right 1 == 1 && (s.rec_ b 1 1 == 1 || s.rec_ b 32 20 == src)
      && decide (base ≤ a ∧ a + n ≤ base + s.rec_ (b + 0x10) 0 48))).map (fun w => s.rec_ (winRec w) 12 4)

/-- The READ that a WRITE with RESP answers within its return range. -/
def State.answered (s : State) (f : Frag) : Option (Nat × OutRead) :=
  if f.arg % 2 = 0 then none
  else
    let k := f.arg / 2 ^ 16 % 2 ^ 16
    match s.msg.reads.find? k with
    | some r => if r.dest = f.src ∧ r.lo ≤ f.addr ∧ f.addr + f.data.length ≤ r.lo + r.n then some (k, r) else none
    | none => none

/-- What the completion of a WRITE does beside DONE: a returned page has landed (R301). -/
def State.readAnswered (s : State) (k : Nat) (r : OutRead) : State :=
  let s := s.setMsg { s.msg with reads := s.msg.reads.drop k }
  let x := s.pool r.pool
  let s := s.setPool r.pool { x with landed := x.landed ++ [r.page] }
  match s.msgKey r.dest k with
  | some m => s.endMsg m 0
  | none => s

/-- Writes a WRITE fragment for partition `p`. -/
def State.writeFrag (s : State) (p : Nat) (f : Frag) (read : Option (Nat × OutRead)) : State :=
  let s := s.writeBad (some p) f.addr f.data f.bad
  let (c, s) := s.note f f.arg id
  let (_, s) := s.fragProv f f.addr f.data.length c.whole
  if !c.whole then s
  else
    let s := s.completeMsg f c
    match read with
    | some (k, r) => s.readAnswered k r
    | none => s

/-- WRITE (R446, R447, R554). -/
def execWrite (p : Fin 6) (vc : Fin 4) (s : State) : Host.Outcome State Fault Refusal :=
  s.onHead p.val vc.val 0 (fun _ f =>
    match s.intake f with
    | .wait => none
    | .drop s => some s
    | .take =>
      let n := f.data.length
      if f.arg / 2 % 2 = 1 then
        match s.shutTakes f.src (f.arg / 2 ^ 32) f.addr n with
        | some i => some ((s.writeFrag (s.shutPart i) f none).addGot i n)
        | none => some ((s.shutLate f.src).deny f)
      else
        match s.answered f with
        | some r => some (s.writeFrag r.2.pool f (some r))
        | none =>
          match s.window f.src 2 f.addr n with
          | some part => some (s.writeFrag part f none)
          | none => some ((s.bumpRec (msgCtl + 0x28) 0 32 1).deny f))

/-- READ (R437, R446): the range goes back as a WRITE on VC2. -/
def execRead (p : Fin 6) (vc : Fin 4) (s : State) : Host.Outcome State Fault Refusal :=
  s.onHead p.val vc.val 11 (fun _ f =>
    let n := f.readLen.getD 0
    match s.window f.src 3 f.addr n with
    | none => some ((s.bumpRec (msgCtl + 0x28) 0 32 1).deny f)
    | some part =>
      let m := s.readHbm (some part) f.addr n
      some (m.st.sendFrom
        { dest := f.src, kind := 0, vc := 2, addr := f.arg % 2 ^ 48, arg := 1 + f.mtag * 2 ^ 16, bad := s.badIn f.addr n }
        [(f.addr, n)] m.bytes).2)

/-- A write of word 0 of write window `n` (R446). -/
def State.windowWord (s : State) (w : Writer) (n : Nat) (v : Word) : State :=
  let a := winRec n
  if !s.writesFor w (s.rec_ a 12 4) then s
  else
    let s := if w = .joinery then s.setRec a 12 4 (bits v 12 4) else s
    let s := s.setRec a 1 3 (bits v 1 3)
    if !bit v 0 then s.setRec a 0 1 0
    else if s.rec_ a 0 1 = 1 then s
    else if s.inPart (s.rec_ a 12 4) (s.rec_ (a + 8) 0 48) (s.rec_ (a + 0x10) 0 48) then (s.setRec a 0 1 1).setRec a 4 1 0
    else s.setRec a 4 1 1

/-- WINDOW_ENABLE (R446). -/
def execWindowEnable (w : Writer) (n : Fin 64) (v : Word) (s : State) : Host.Outcome State Fault Refusal :=
  .next (s.windowWord w n.val v)

/-! ### Groups (R326, R331, R333, R340, R453) -/

/-- How a fragment of a group stands: its epoch is the group's, it is the next epoch's of an armed group, or it is stale. -/
inductive EpochIs where
  | now | next | stale
  deriving DecidableEq, Repr

def State.epochIs (s : State) (g epoch : Nat) : EpochIs :=
  let st := s.groupState g
  if st ≠ 0 ∧ epoch = s.groupEpoch g then .now
  else if st = 2 ∧ s.gf g 0 6 1 = 0 ∧ epoch = s.gf g 0x18 16 16 then .next
  else .stale

/-- The byte ranges that a range of source bytes becomes in the destination of a conversion (R447). -/
def convRange (ss ds : Nat) (b : Nat × Nat) : Nat × Nat :=
  (b.1 / ss * ds, (ceilDiv (b.1 + b.2) ss - b.1 / ss) * ds)

/-- Flags of the receive path of a port (R94). -/
def State.rxFlags (s : State) (p : Nat) (f : Fl) : State :=
  s.setReg (lnkBase p + 0x1C) (s.reg (lnkBase p + 0x1C) ||| BitVec.ofNat 32 (f.toNat % 32))

/-- A gather fragment of the current epoch that arrived on port `p`. -/
def State.gatherFrag (s : State) (p : Nat) (f : Frag) : State :=
  let g := f.arg % 64
  let i := f.arg / 2 ^ 6 % 1024
  let shard := f.arg / 2 ^ 16 % 4096
  let sfmt := f.arg / 2 ^ 28 % 16
  let k := signed 8 (f.arg / 2 ^ 32)
  let cfmt := f.arg / 2 ^ 40 % 16
  let dfmt := f.arg / 2 ^ 44 % 16
  let (x, s) := s.openInst g i
  let s := if !x.begun && f.frag == 0 then s.bumpRec (groupRec g + 0x38) 0 32 1 else s
  let s := s.setInst g i { x with gath := true, progress := true }
  let (bs, fl) := gathConvert sfmt cfmt dfmt k (s.draw 1 == 1) f.data
  let s := (s.drew.writeBad (some (s.groupPart g)) f.addr bs (f.bad.map (convRange (gathSize sfmt) (gathSize dfmt)))).rxFlags p fl
  let (c, s) := s.note f f.arg id
  let (_, s) := s.fragProv f f.addr bs.length c.whole
  let s := s.captureFrag g i shard sfmt (f.frag * (fragMax / 4)) f.data f.bad
  if !c.whole then s
  else
    let s := s.completeMsg f c
    match s.inst? g i with
    | some x => (s.setInst g i { x with got := if x.got.contains shard then x.got else shard :: x.got }).settleInst g i
    | none => s

/-- A module-tree fragment of the current epoch that arrived on port `p`. -/
def State.treeFrag (s : State) (p : Nat) (f : Frag) : State :=
  let g := f.arg % 64
  let i := f.arg / 2 ^ 6 % 1024
  let (c, s) := s.note f f.arg (fun c => { c with data := c.data.put f.frag f.data })
  let (k, s) := s.fragProv f f.addr 0 c.whole
  if !c.whole then s
  else
    let data := c.data.flatMap (·.2)
    (s.completeMsg f c).treeArrive g i (f.arg / 2 ^ 16 % 4096) (f.arg / 2 ^ 28 % 256) (f.arg / 2 ^ 36 % 2 == 1) data p k

/-- A fragment of a group: taken, held for the next epoch, or discarded as stale (R340). -/
def State.groupFrag (s : State) (p : Nat) (fs : List (BitVec 2048)) (f : Frag) (go : State → State) : Option State :=
  let g := f.arg % 64
  match s.intake f with
  | .wait => none
  | .drop s => some s
  | .take =>
    match s.epochIs g f.epoch with
    | .now => some (go s)
    | .next =>
      let s := if f.frag = 0 then s.bumpRec (groupRec g + 0x38) 0 32 1 else s
      some (s.setGroups { s.groups with ahead := s.groups.ahead ++ [{ group := g, turn := s.turn.ticks, port := p, flits := fs }] })
    | .stale => some (if f.frag = 0 then s.bumpRec (groupRec g + 0x34) 0 32 1 else s)

/-- GATHER (R331, R333, R453). -/
def execGather (p : Fin 6) (vc : Fin 4) (s : State) : Host.Outcome State Fault Refusal :=
  s.onHead p.val vc.val 1 (fun fs f => s.groupFrag p.val fs f (fun s => s.gatherFrag p.val f))

/-- TREE (R326). -/
def execTree (p : Fin 6) (vc : Fin 4) (s : State) : Host.Outcome State Fault Refusal :=
  s.onHead p.val vc.val 2 (fun fs f => s.groupFrag p.val fs f (fun s => s.treeFrag p.val f))

/-- Held fragments whose epoch is now their group's are released (R340). -/
def State.releaseAhead (s : State) : State :=
  s.groups.ahead.foldl (fun s h =>
    let f := fragOf h.flits
    if s.epochIs h.group f.epoch ≠ .now then s
    else
      let gone (s : State) : State := s.setGroups { s.groups with ahead := s.groups.ahead.erase h }
      match s.intake f with
      | .wait => s
      | .drop s => gone s
      | .take => let s := gone s; if f.kind = 1 then s.gatherFrag h.port f else s.treeFrag h.port f) s

/-! ### Rings (R285, R287, R291) -/

/-- A block of hop `h` is whole in its buffer: it is brought to the ring's exponents; it lets a hop start, or replaces a
retracted one (R287, R293). `ek` and `ev` are its header's exponents. -/
def State.blockHere (s : State) (p r h : Nat) (ek ev : Int) (k : Option Nat) : State :=
  let part := s.ringPart r
  let a := s.bufAddr r (h % 3) + 256
  let n := 2 * s.kBytes r
  let bad := s.badIn a n
  let m := s.readHbm (some part) a n
  let (bs, f, sats, s) := m.st.rescaleBlock r ek ev m.bytes
  let s := if bs = m.bytes then s else s.writeBad (some part) a bs bad
  let s := (s.bumpRec (ringRec r + 0x5C) 0 32 sats).rxFlags p f
  let x := s.ring r
  let again := x.await && x.provHop == h
  let x := if again then { x with await := false, retract := true } else { x with arrived := h }
  let x := if k.isSome then { x with prov := k, provHop := h } else x
  let s := s.setRing r { x with progress := true }
  if again || k.isSome then (s.ringTell r).ringSend r else s

/-- RING (R280, R287, R291): fragment 0 carries the block's header. -/
def execRing (p : Fin 6) (vc : Fin 4) (s : State) : Host.Outcome State Fault Refusal :=
  s.onHead p.val vc.val 3 (fun _ f =>
    match s.intake f with
    | .wait => none
    | .drop s => some s
    | .take =>
      let h (off w : Nat) : Nat := ofBytes ((f.data.drop off).take w)
      let c := s.ctx? f.src f.mtag
      -- ring and hop of the message: its header's, or the context's
      let rh : Option (Nat × Nat) := if f.frag = 0 then some (h 4 4 % 16, h 8 4 / 2 ^ 16 % 4096) else c.map (fun c => (c.arg % 16, c.arg / 16 % 4096))
      match rh with
      | none => some s
      | some (r, hop) =>
        let x := s.ring r
        if !s.ringLive r || f.epoch != s.ringEpoch r || f.src != s.rf r 0x0C 0 20 then
          some (if f.frag = 0 then s.bumpRec (ringRec r + 0x58) 0 32 1 else s)
        else if f.frag == 0 && (h 4 4 / 16 % 256 != s.rf r 0x34 0 8 || h 0x0C 4 != s.kBytes r
            || !(hop == x.arrived + 1 || (x.await && hop == x.provHop)) || decide (hop > s.ringHops r)) then some (s.passFail r 5)
        else
          let part := s.ringPart r
          let at_ := s.bufAddr r (hop % 3) + fragMax * f.frag
          let s := s.writeBad (some part) at_ f.data f.bad
          let arg := r + 16 * hop + 2 ^ 16 * (h 8 4 % 2 ^ 16)
          let (c, s) := s.note f arg id
          let (k, s) := s.fragProv f at_ f.data.length c.whole
          if !c.whole then some s
          else some ((s.completeMsg f c).blockHere p.val r hop (signed 8 (c.arg / 2 ^ 16)) (signed 8 (c.arg / 2 ^ 24)) k))

/-- CREDIT (R285): it releases a block that waits for its buffer. -/
def execCredit (p : Fin 6) (vc : Fin 4) (s : State) : Host.Outcome State Fault Refusal :=
  s.onHead p.val vc.val 10 (fun _ f =>
    let r := f.arg % 16
    let b := f.arg / 16 % 4
    if !s.ringLive r || f.arg / 2 ^ 16 % 2 ^ 16 != s.ringEpoch r || f.src != s.rf r 8 0 20 then
      some (s.bumpRec (ringRec r + 0x58) 0 32 1)
    else
      let x := s.ring r
      some ((s.setRing r { x with credit := b :: x.credit.filter (· != b) }).ringSend r))

/-! ### Ends of messages (R444, R445) -/

/-- DONE (R444). -/
def execDone (p : Fin 6) (vc : Fin 4) (s : State) : Host.Outcome State Fault Refusal :=
  s.onHead p.val vc.val 4 (fun _ f =>
    match s.msgKey f.src (f.arg % 2 ^ 16) with
    | some k => some (s.endMsg k 0)
    | none => some s)

/-- The status of a message that its destination refuses (R30, R445): the window check, which only a WRITE meets, or for a reserved
message a destination that is not aligned; of a reserved WRITE nothing says which. -/
def State.refusedBy (s : State) (m : Msg) : Nat := if !m.res then 0x93 else if m.kind ≠ 0 ∨ s.draw 1 = 1 then 0x44 else 0x93

/-- UNREACH (R445): from the destination it means that the message was refused, from a module on the path that a link is
down. -/
def execUnreach (p : Fin 6) (vc : Fin 4) (s : State) : Host.Outcome State Fault Refusal :=
  s.onHead p.val vc.val 5 (fun _ f =>
    let dest := f.arg / 2 ^ 16 % 2 ^ 20
    match s.msgKey dest (f.arg % 2 ^ 16) with
    | some k =>
      if f.src ≠ dest then some (s.endMsg k 0x94)
      else match s.msg.out.find? k with
        | some m => some ((if m.res then s.drew else s).endMsg k (s.refusedBy m))
        | none => some s
    | none => some s)

/-- MSG_TIMEOUT (R445). -/
def execMsgTimeout (mtag : Fin 65536) (s : State) : Host.Outcome State Fault Refusal :=
  let late (m : Nat × Msg) : Bool := m.2.mtag == mtag.val && !m.2.done && (match m.2.sentTurn with
    | some t => decide (t + 66 ≤ s.turn.ticks)
    | none => false)
  match List.find? late s.msg.out with
  | some m => .next (s.endMsg m.1 0x95)
  | none => .next s

/-! ### Confirmation (R451, R517) -/

/-- CONFIRM (R451): it is held when the message is not complete. -/
def execConfirm (p : Fin 6) (vc : Fin 4) (s : State) : Host.Outcome State Fault Refusal :=
  s.onHead p.val vc.val 6 (fun _ f =>
    let mtag := f.arg % 2 ^ 16
    match s.provKey f.src mtag with
    | some k =>
      let s := s.setSill { s.sill with prov := s.sill.prov.upd {} k (fun e => { e with confirmed := true }) }
      some (if (s.sill.prov.get {} k).complete then (s.ringProv k false).settleProv k else s)
    | none =>
      if s.msg.dead.any (sameMsg f.src mtag) then some s
      else if !s.provRoom then none
      else
        let k := s.sill.nextProv
        some (s.setSill { s.sill with
          prov := s.sill.prov.put k { src := f.src, mtag := mtag, confirmed := true, turn := s.turn.ticks }, nextProv := k + 1 }))

/-- A provisional message is retracted (R451): its remaining fragments will be discarded, its context ends without DONE,
and the Sill is told. -/
def State.retractFrom (s : State) (src mtag : Nat) : State :=
  let s := s.dropCtx src mtag
  let s := s.setMsg { s.msg with dead := s.msg.dead ++ [(src, mtag, s.turn.ticks)] }
  match s.provKey src mtag with
  | some k => (s.taint k).ringProv k true
  | none => s

/-- RETRACT (R451, R517). -/
def execRetract (p : Fin 6) (vc : Fin 4) (s : State) : Host.Outcome State Fault Refusal :=
  s.onHead p.val vc.val 7 (fun _ f => some (s.retractFrom f.src (f.arg % 2 ^ 16)))

/-- PROV_EXPIRED (R451). -/
def execProvExpired (src : Fin 1048576) (mtag : Fin 65536) (s : State) : Host.Outcome State Fault Refusal :=
  match (s.provKey src.val mtag.val).bind s.sill.prov.find? with
  | some e =>
    if !e.confirmed && decide (e.turn + 4 ≤ s.turn.ticks) then
      .next (((s.bumpRec (msgCtl + 0x38) 0 32 1).fault 0x09 2 2 src.val mtag.val).retractFrom src.val mtag.val)
    else .next s
  | none => .next s

/-! ### Contexts that stall (R449), and the message layer itself (R431) -/

/-- REASSEMBLY_STALL (R449): the context is discarded and leaves a tombstone; of 16,384 the oldest goes. -/
def execReassemblyStall (src : Fin 1048576) (mtag : Fin 65536) (s : State) : Host.Outcome State Fault Refusal :=
  match s.ctx? src.val mtag.val with
  | some c =>
    if c.turn + 64 ≤ s.turn.ticks then
      let s := (s.dropCtx src.val mtag.val).bumpRec (msgCtl + 0x20) 0 32 1
      let old := if s.msg.tombs.length ≥ 16384 then s.msg.tombs.drop 1 else s.msg.tombs
      .next (s.setMsg { s.msg with tombs := old ++ [(src.val, mtag.val, s.turn.ticks)] })
    else .next s
  | none => .next s

/-- TOMBSTONE_EXPIRY (R449). -/
def execTombstoneExpiry (src : Fin 1048576) (mtag : Fin 65536) (s : State) : Host.Outcome State Fault Refusal :=
  .next (s.setMsg { s.msg with
    tombs := s.msg.tombs.filter (fun t => !(sameMsg src.val mtag.val t && decide (t.2.2 + 128 ≤ s.turn.ticks))) })

/-- A tick ends the 128 turns in which a tag is not used again (R436). -/
def State.msgTick (s : State) : State :=
  let keep (t : Nat × Nat × Nat) : Bool := decide (s.turn.ticks < t.2.2 + 128)
  s.setMsg { s.msg with dead := s.msg.dead.filter keep, denied := s.msg.denied.filter keep }

/-- The message layer is disabled (R431): contexts, provisional entries and tombstones are emptied; every received entry is
treated as retracted and counts in PROV_EXPIRED. -/
def State.emptyLayer (s : State) : State :=
  let es := s.sill.prov.filter (fun e => e.2.cmd.isNone)
  let s := es.foldl (fun s e => ((s.taint e.1).ringProv e.1 true).bumpRec (msgCtl + 0x38) 0 32 1) s
  let s := s.setSill { s.sill with prov := [] }
  s.setMsg { s.msg with ctxs := [], tombs := [], dead := [], denied := [] }

/-- A write of byte 0 of the message control record (R431). -/
def State.msgWord (s : State) (w : Writer) (v : Byte) : State :=
  if w ≠ .joinery then s
  else if !bit v 0 then
    let was := s.rec_ msgCtl 0 1
    let s := s.setRec msgCtl 0 1 0
    (if was = 0 then s.setRec msgCtl 1 3 (bits v 1 3) else s).emptyLayer
  else if s.rec_ msgCtl 0 1 = 1 then s
  else s.setRec msgCtl 0 4 (bits v 0 4)

/-- MSG_ENABLE (R431). -/
def execMsgEnable (w : Writer) (v : Byte) (s : State) : Host.Outcome State Fault Refusal := .next (s.msgWord w v)

/-! ### Transit (R432, R433) -/

/-- TRANSIT_FORWARD (R433): the whole fragment goes to the next port once its VC there is free and holds credit for it;
where that port's link is down its flits are discarded and its source is told (R445). -/
def execTransitForward (p : Fin 6) (vc : Fin 4) (s : State) : Host.Outcome State Fault Refusal :=
  match s.headFlits p.val vc.val with
  | none => .next s
  | some fs =>
    let f := fragOf fs
    let me := s.myId
    let out := s.routePort me f.dest
    if f.dest = me ∨ out ≥ 6 then .next s
    else if !s.portReady out then .next ((s.transitLost out f.src f.mtag f.dest).consume p.val vc.val fs.length)
    else
      let q := s.port out
      let enter := out / 2 != p.val / 2
      let x : OutFrag := { flits := fs, enter := enter, transit := some (f.src, f.mtag, f.dest) }
      if (q.outq.get [] vc.val).isEmpty && decide (fs.length + (if enter then 64 else 0) ≤ q.credit vc.val) then
        .next ((s.queueFrag out vc.val x).consume p.val vc.val fs.length)
      else .next s

end Sys2Proof.Machine
end

