-- ==== Sys2Proof/Machine/Preempt.lean ====
section
/-!
DEFINITION. Machine/Preempt.lean: threads that start, stop and fault (R200, R223, R224), the YIELD in force (R500, R501), and
the pre-emption of a core's resident: save and restore (R498 to R505).
-/
namespace Sys2Proof.Machine

/-! ### Threads -/

def State.cpre (s : State) (l : Nat) : CorePre := s.pre.get {} l
def State.setPre (s : State) (l : Nat) (x : CorePre) : State := { s with pre := s.pre.put l x }

/-- A thread whose context is being saved issues nothing (R499). -/
def State.frozen (s : State) (l t : Nat) : Bool :=
  let x := s.cpre l
  (x.st == .stopping || x.st == .saving) && x.thread == t

/-- Whether a thread may issue an instruction (R200, R201). -/
def State.issues (s : State) (l t : Nat) : Bool := s.present l && (s.thread l t).st == .ready && !s.frozen l t

/-- Starts a thread at `pc` (R226): READY, its exception cleared. -/
def State.startThread (s : State) (l t pc : Nat) : State :=
  s.setThread l t { s.thread l t with
    pc := BitVec.ofNat 48 pc, st := .ready, wait := .none, excCause := 0, excCode := 0, issued := 0, stopPending := false }

/-- A thread that waits on a memory access (R224). -/
def Thread.inAccess (x : Thread) : Bool :=
  x.st == .wait && (match x.wait with
    | .data _ _ _ => true
    | _ => false)

/-- RUN written 0 (R224): OFF, but a memory access completes first. -/
def State.stopThread (s : State) (l t : Nat) : State :=
  let x := s.thread l t
  if x.inAccess then s.setThread l t { x with stopPending := true }
  else s.setThread l t { x with st := .off, wait := .none, stopPending := false }

/-- An exception (R223): the thread enters FAULTED at the instruction; what has no data address leaves the field as it is. -/
def State.except (s : State) (l t cause code : Nat) (addr : Option Nat) : State :=
  let x := s.thread l t
  let x := { x with st := .faulted, wait := .none, excCause := BitVec.ofNat 8 cause, excCode := BitVec.ofNat 12 code
                    excAddr := addr.elim x.excAddr (BitVec.ofNat 64) }
  (s.setThread l t x).ccr l t

/-! ### YIELD (R500, R501) -/

def yieldRegs (d : Desc) : List Nat := (upTo 32).filter (fun r => d.f 0x10 r 1 == 1)
def yieldSlots (d : Desc) : List Nat := (upTo 8).filter (fun t => d.f 0x14 t 1 == 1)

/-- Scratchpad ranges as (start, bytes). -/
def yieldRanges (d : Desc) : List (Nat × Nat) :=
  ((upTo 4).map (fun k => (256 * d.f (0x18 + 8 * k) 0 16, 256 * d.f (0x18 + 8 * k) 16 16))).filter (fun r => r.2 != 0)

/-- YIELD (R501): it runs on no engine; when it retires it is in force on its core, or with END none is. -/
def execYield (c : Fin 128) (tag : Fin 4096) (s : State) : Host.Outcome State Fault Refusal :=
  let l := c.val
  match (s.core l).run tag.val with
  | none => .next s
  | some r =>
    let d : Desc := r.cmd.desc
    if Desc.cls r.cmd.desc ≠ 11 ∨ r.replaying then .next s
    else
      let s := s.finish l r.cmd.id 0
      let s := if r.status = 0 then s.setCore l { s.core l with yield := if d.f 0x14 8 1 = 1 then none else some d } else s
      match s.runOf l r.cmd.id with
      | some r => .next (s.retire l r)
      | none => .next s

/-! ### Save areas (R502) -/

/-- Start of the save area of logical core `l`. -/
def State.saveArea (s : State) (l : Nat) : Nat :=
  (s.reg Reg.seqSaveLo).toNat + 2 ^ 32 * s.fld Reg.seqSaveHi 0 16 + l * (max s.liveMax (1024 * 2116) + 4096)

/-- Blocks of the first `n` bytes of an area. -/
def blocksOf (a n : Nat) : List Nat := (upTo (ceilDiv n 64)).map (fun i => a / 64 + i)

/-! ### The save (R498, R499, R501) -/

/-- The commands of the resident that hold the matrix engine, the vector engine or the DMA front end. -/
def State.residentRuns (s : State) (l : Nat) : List Run :=
  (s.core l).running.filter (fun r => r.cmd.prog.isNone && !r.done && r.engines.any serialEngine)

/-- A core without a resident: its thread is OFF, no unbudgeted command is there, no YIELD is in force, no slot is used. -/
def State.idleCore (s : State) (l t : Nat) : Bool :=
  (s.thread l t).st == .off && (s.core l).yield.isNone && (s.residentRuns l).isEmpty
    && (s.core l).queue.all (fun c => c.prog.isSome) && (s.phy (s.under l)).slots.all (fun x => x.2.st == .free)

/-- The pre-emption of a core for a program on thread `t` begins (R498); one that reaches a restore ends it at once, and what
is saved already stays saved (R504). -/
def State.beginPre (s : State) (l t : Nat) : State :=
  let x := s.cpre l
  match x.saved with
  | some v =>
    if (v.ctxs.find? t).isSome then s.setPre l { x with st := .saved }
    else if (s.thread l t).st = .off then
      s.setPre l { x with st := .saved, saved := some { v with ctxs := v.ctxs.put t (s.thread l t) } }
    else s.setPre l { x with st := .stopping, thread := t }
  | none => if s.idleCore l t then s else s.setPre l { x with st := .stopping, thread := t }

/-- A pre-emption whose program is gone before its save begins ends, and the resident resumes (R504). -/
def State.endPre (s : State) (l : Nat) : State :=
  let x := s.cpre l
  if x.st = .stopping then s.setPre l { x with st := if x.saved.isSome then .saved else .none } else s

/-- A core on which a program may start: nothing is left to be saved. -/
def State.preReady (s : State) (l : Nat) : Bool := (s.cpre l).st == .none || (s.cpre l).st == .saved

/-- Whether the engines have stopped (R498): the matrix engine between tile steps, the vector engine between tiles with the
Hatch empty, no request of a transfer in flight; without a YIELD, or in COMMAND mode, between commands. -/
def State.enginesStopped (s : State) (l : Nat) : Bool :=
  let rs := s.residentRuns l
  let p := s.phy (s.under l)
  let service := s.fld Reg.seqCtl 1 1 == 0 && (s.core l).yield.isSome
  let quiet (r : Run) : Bool :=
    !r.replaying && !r.issuedAll && r.outstanding == 0 && !r.stages.any (·.busy)
      && (r.stages.zipIdx.all (fun x => !(x.1.started && !x.1.done && Desc.cls (r.desc x.2) == 4) || p.cur.isNone))
  p.hatch.isEmpty && (if service then rs.all quiet else rs.isEmpty)

/-- What is live on a core under the YIELD in force, or with none: registers, slots, scratchpad ranges (R501). -/
def State.liveParts (s : State) (l : Nat) : List Nat × List Nat × List (Nat × Nat) :=
  match (s.core l).yield with
  | some d => (yieldRegs d, yieldSlots d, yieldRanges d)
  | none => (upTo 32, (upTo 8).filter (fun t => ((s.phy (s.under l)).slot t).st == .kept), [])

/-- The part of a physical core that a save keeps, and its engine positions. DESIGN CHOICE (notes/assumptions/9.md): a wrong code in a word
that is saved is found when the word is next read after the restore. -/
def Phys.keep (p : Phys) (regs slots : List Nat) (ranges : List (Nat × Nat)) : Phys :=
  { p with
    vregs := regs.foldl (fun t r => (upTo 512).foldl (fun t i => t.put (512 * r + i) (p.vword (512 * r + i))) t) []
    tags := p.tags.filter (fun x => regs.contains x.1)
    acc := slots.foldl (fun t k => (upTo 65536).foldl (fun t i => t.put (65536 * k + i) (p.accWord (65536 * k + i))) t) []
    slots := p.slots.filter (fun x => slots.contains x.1)
    spd := ranges.foldl (fun t r => (upTo r.2).foldl (fun t i => t.put (r.1 + i) (p.spdByte (r.1 + i))) t) []
    hatch := []
    accUps := p.accUps.filter (fun u => slots.contains (u.1 / 32768)), vecUps := p.vecUps.filter (fun u => regs.contains (u.1 / 256))
    spdUps := p.spdUps.filter (fun u => ranges.any (fun r => inRanges [r] u.1)) }

/-- PREEMPT_SAVE (R499): the thread stops, keeping its state; progress and live state go to the save area. -/
def execPreemptSave (c : Fin 128) (s : State) : Host.Outcome State Fault Refusal :=
  let l := c.val
  let x := s.cpre l
  let t := x.thread
  if x.st ≠ .stopping ∨ !s.enginesStopped l ∨ (s.thread l t).inAccess then .next s
  else
    let k := s.core l
    let th := s.thread l t
    match x.saved with
    | some v =>
      let v := { v with ctxs := v.ctxs.put t { th with stores := [] }, sums := v.sums ++ k.sums.filter (fun y => y.1 / 4 == t) }
      .next ((s.setThread l t { part := th.part, start := th.start, issuedRc := th.issuedRc, stores := th.stores }).setPre l { x with st := .saving, saved := some v })
    | none =>
      let (regs, slots, ranges) := s.liveParts l
      let rs := s.residentRuns l
      let p := s.phy (s.under l)
      let n := match k.yield with
        | some d => yieldLive d
        | none => 1536 + 65536 + 262144 * slots.length
      let v : Saved := {
        ctxs := [(t, { th with stores := [] })], runs := rs, flags := k.flags, sums := k.sums.filter (fun y => y.1 / 4 == t)
        phys := p.keep regs slots ranges, bytes := n }
      let s := s.setCore l { k with running := k.running.filter (fun r => rs.all (fun y => y.cmd.id != r.cmd.id)) }
      let s := s.setThread l t { part := th.part, start := th.start, issuedRc := th.issuedRc, stores := th.stores }
      -- the resident's slots are free for the program (R149)
      let s := s.setPhy (s.under l) ((upTo 8).foldl (fun p t => p.freeSlot t) { p with cur := none })
      let s := (blocksOf (s.saveArea l) n).foldl (fun s b => s.clearPoison b) s
      .next (s.setPre l { x with st := .saving, saved := some v, bytes := n })

/-! ### The restore (R503, R505) -/

/-- A saved context comes back into thread `t`: state and waits as they were, then what ended meanwhile (R222, R503). -/
def State.resumeThread (s : State) (l t : Nat) (th : Thread) : State :=
  let th := match th.wait with
    | .wtick n => if s.turn.running && decide (s.turnNo ≥ n) then th.ready else th
    | _ => th
  (s.setThread l t { th with stores := (s.thread l t).stores }).wakeThread l t

/-- Contents that no save kept have no defined value (R501): they are open from the next draw on. -/
def State.openPhys (s : State) (i : Nat) (p : Phys) : State :=
  let s := s.setPhy i { p with free := some s.drawn }
  { s with drawn := s.drawn + 2 ^ 25 }

/-- A saved resident comes back on logical core `l`. -/
def State.loadSaved (s : State) (l : Nat) (v : Saved) : State :=
  let s := s.openPhys (s.under l) v.phys
  let k := s.core l
  let sums := v.sums.foldl (fun (t : Tab Dword) y => t.put y.1 y.2) k.sums
  let s := s.setCore l { k with running := v.runs ++ k.running, flags := v.flags, sums := sums }
  v.ctxs.foldl (fun s x => s.resumeThread l x.1 x.2) s

/-- What a save holds when its area cannot be read: registers, tiles and scratchpad have no defined contents (R505). -/
def Saved.unread (v : Saved) (s : State) : Saved × State :=
  ({ v with
      phys := { v.phys with vregs := [], acc := [], spd := [], accUps := [], vecUps := [], spdUps := [] }
      ctxs := v.ctxs.map (fun y => (y.1, { y.2 with
        regs := (upTo 31).map (fun j => (j + 1, Config.freeValue 64 (s.drawn + j))), preds := Config.freeValue 8 (s.drawn + 31) })) },
    { s with drawn := s.drawn + 32 })

/-- RESTORE (R503): the save area is read. Poison in it ends the restore (R505): the resumed commands complete with
SEQ_RESTORE_POISONED and the thread enters FAULTED. -/
def execRestore (c : Fin 128) (s : State) : Host.Outcome State Fault Refusal :=
  let l := c.val
  let x := s.cpre l
  match x.saved with
  | none => .next s
  | some v =>
    if x.st ≠ .saved ∨ (s.holder l).isSome ∨ !s.present l then .next s
    else if (blocksOf (s.saveArea l) v.bytes).any (fun b => s.poisoned b || s.pcState (hbmMap (64 * b)).pc == 3) then
      -- DESIGN CHOICE (notes/assumptions/67.md): what the restore had not read is open, so all of it is
      let (v, s) := v.unread s
      let s := s.loadSaved l v
      let s := s.setPre l { x with st := .none, saved := none }
      let s := v.runs.foldl (fun s r => s.finish l r.cmd.id 0xB4) s
      let s := v.ctxs.foldl (fun s y => s.except l y.1 5 0 none) s
      .next ((s.raise 5 2).fault 0x0F 2 2 l 0)
    else .next (s.setPre l { x with st := .restoring })

/-- RESTORE_COMPLETE (R503). -/
def execRestoreComplete (c : Fin 128) (s : State) : Host.Outcome State Fault Refusal :=
  let l := c.val
  let x := s.cpre l
  match x.saved with
  | none => .next s
  | some v =>
    if x.st ≠ .restoring then .next s
    else .next ((s.setPre l { x with st := .none, saved := none }).loadSaved l v)

end Sys2Proof.Machine
end

