-- ==== Sys2Proof/Machine/Programs.lean ====
section
/-!
DEFINITION. Machine/Programs.lean: budgeted programs: the cores they get (R252, R494, R495), the Doorstop (R41 to R47, R58),
and the sequence table that schedules steps (R485 to R497).
-/
namespace Sys2Proof.Machine

/-! ### Sequence entries (R486 to R489) -/

/-- Whether a requester owns a partition (R487, R489). -/
def State.ownsPart (s : State) (r : Requester) (p : Nat) : Bool :=
  match r with
  | .joinery => true
  | .tumbler => false
  | .h0 => s.partHost p == 1
  | .h1 => s.partHost p == 2

/-- Whether report queue `q` is ACTIVE, the requester's, and of partition `p`; Joinery may name any (R489). -/
def State.rptOk (s : State) (r : Requester) (q p : Nat) : Bool :=
  (s.queue q).st == .active && s.qPart q == p && (match r.port? with
    | some h => s.qOwner q == h + 1
    | none => r == .joinery)

/-- The tests of ACTIVATE in order (R489): the first failure's code. -/
def State.activateCode (s : State) (r : Requester) (i : Nat) : Option Nat :=
  let p := s.seqPart i
  let g := s.seqProg i
  let c := s.sf i 0 8 4
  let fb := s.pgf g 0 51 1 == 1
  if s.seqState i ≠ 0 then some 0xB0
  else if !(s.partValid p && s.ownsPart r p && s.rangeOwner (s.sf i 0x10 0 48) == some p && s.rangeOwner (s.sf i 0x18 0 48) == some p
      && decide (s.seqTokens i ≥ s.seqDone i)) then some 0xB1
  else if !(s.pgf g 0 53 1 == 1 && s.pgf g 0x18 8 4 == p && s.rptOk r (s.seqRptq i) p) then some 0xB2
  else if !(s.clsEnabled c && s.turn.valid) || (s.clsStrict c && !fb) then some 0x43
  else if !s.standingFits c (s.pgf g 0x10 0 32) (if fb then s.pgf g 0x10 32 32 else 0) then some 0x40
  else none

/-- SEQ_CMD and SEQ_RES of a requester (R507). -/
def State.seqResult (s : State) (r : Requester) (i op st : Nat) : State :=
  let k := r.code
  (s.setReg (Reg.seqCmd k) (BitVec.ofNat 32 (i + op * 2 ^ 20))).setReg (Reg.seqRes k) (BitVec.ofNat 32 st)

/-- ACTIVATE (R489); a requester other than H0, H1 and Joinery is ignored (R507). -/
def execActivate (r : Requester) (i : Fin 262144) (s : State) : Host.Outcome State Fault Refusal :=
  let i := i.val
  if r = .tumbler ∨ !s.hears r ∨ s.closed then .next s
  else
    match s.activateCode r i with
    | some code => .next (s.seqResult r i 1 code)
    | none =>
      let g := s.seqProg i
      let fb := s.pgf g 0 51 1 == 1
      let st : Standing := { cls := s.sf i 0 8 4, main := s.pgf g 0x10 0 32, fb := if fb then s.pgf g 0x10 32 32 else 0, at_ := s.turn.ticks }
      let s := s.setTurn { s.turn with standing := s.turn.standing.put i st }
      let s := (s.setSf i 0 0 3 1).setRec (progRec g + 0x18) 32 32 (s.pgf g 0x18 32 32 + 1)
      .next ((s.setSeq { s.seq with act := s.seq.act.put i r }).seqResult r i 1 0)

/-- RETIRE (R489). -/
def execRetire (r : Requester) (i : Fin 262144) (s : State) : Host.Outcome State Fault Refusal :=
  let i := i.val
  if r = .tumbler ∨ !s.hears r then .next s
  else match s.seqState i with
    | 1 => .next (((s.seqLeave i).setSf i 0 0 3 2).seqResult r i 2 0)
    | 3 => .next ((s.setSf i 0 0 3 0).seqResult r i 2 0)
    | _ => .next (s.seqResult r i 2 0xB0)

/-- A write of TOKENS (R487, R488, R492). -/
def State.writeTokens (s : State) (w : Writer) (i : Nat) (v : Word) : State :=
  let st := s.seqState i
  if !s.writesFor w (s.seqPart i) ∨ st ≥ 2 then s
  else
    let s := (s.setSf i 0 32 32 v.toNat).mark i
    if st = 1 ∧ s.seqTokens i < s.seqDone i then s.seqFault i else s

/-- TOKENS_WRITE (R492). -/
def execTokensWrite (w : Writer) (i : Fin 262144) (v : Word) (s : State) : Host.Outcome State Fault Refusal :=
  .next (s.writeTokens w i.val v)

/-- A step's record goes into its report queue; without a free slot it is dropped (R496). -/
def State.stepReport (s : State) (i status : Nat) : State :=
  let (ok, s) := s.stepRecord (s.seqRptq i) i status
  if ok then s else (s.bump Reg.seqRptLost 1).raise 5 1

/-- Program `k` wrote the last token of the granules that end within `n` tokens after the first `done` of sequence `i` (R302). -/
def State.noteClosers (s : State) (p i done n k : Nat) : State :=
  let x := s.pool p
  let gs := (upTo ((done + n) / 4096 - done / 4096)).map (done / 4096 + ·)
  s.setPool p { x with closers := gs.foldl (fun t g => t.put (65536 * i + g) k) x.closers }

/-- What the end of a step, of program `k` where it had one, does to its entry (R492, R496). -/
def State.stepEnd (s : State) (k : Option Nat) (p : Prog) (i status : Nat) : State :=
  let s := s.stepReport i status
  let reoffer := s.pgf (s.seqProg i) 0 52 1 == 1
  let s := if status = 0 ∨ !reoffer then
      let s := match k with
        | some k => s.noteClosers p.part i (s.seqDone i) p.tokens k
        | none => s
      s.setSf i 8 0 32 (s.seqDone i + p.tokens)
    else s
  let s := s.setSf i 0x18 48 16 (p.target % 65536)
  if s.seqState i = 1 ∧ s.seqTokens i > s.seqDone i then s.mark i else s

/-! ### Programs and their cores (R252, R493, R494) -/

def State.prog? (s : State) (k : Nat) : Option Prog := s.turn.progs.find? k
def State.setProg (s : State) (k : Nat) (p : Prog) : State := s.setTurn { s.turn with progs := s.turn.progs.put k p }

/-- TRN_CTL.TOL. -/
def State.tol (s : State) : Nat := s.fld Reg.trnCtl 24 4

/-- Start registers of a step's thread on core of rank `rank` (R493). -/
def State.stepRegs (s : State) (p : Prog) (i rank : Nat) : Tab Dword :=
  [(1, BitVec.ofNat 64 i), (2, BitVec.ofNat 64 (s.seqDone i)), (3, BitVec.ofNat 64 p.tokens), (4, BitVec.ofNat 64 p.target)
    , (5, BitVec.ofNat 64 (s.sf i 0x18 0 48)), (6, BitVec.ofNat 64 (s.sf i 0x10 0 48)), (7, BitVec.ofNat 64 rank)]

/-- Starts the program's thread on core `l`. The registers of a TURN program's thread are open. -/
def State.startOn (s : State) (p : Prog) (l : Nat) : State :=
  let t := p.thread
  let x := s.thread l t
  let (x, s) : Thread × State := match p.src with
    | .step i => ({ x with regs := s.stepRegs p i (p.cores.idxOf l), preds := 0 }, s)
    | .turn _ _ => ({ x with
        regs := (upTo 31).map (fun j => (j + 1, Config.freeValue 64 (s.drawn + j))), preds := Config.freeValue 8 (s.drawn + 31) },
        { s with drawn := s.drawn + 32 })
  let s := s.setThread l t { x with part := BitVec.ofNat 4 p.part }
  s.startThread l t (if p.phase = .fallback then p.fbAddr else p.mainAddr)

/-- Starts program `k` on each core whose resident is out of the way, unless its pages hold it (R316). -/
def State.startCores (s : State) (k : Nat) : State :=
  match s.prog? k with
  | none => s
  | some p =>
    if p.held ∨ !(p.phase == .main || p.phase == .fallback) then s
    else
      let now := p.saving.filter s.preReady
      let s := s.setProg k { p with saving := p.saving.filter (fun l => !s.preReady l) }
      now.foldl (fun s l => s.startOn p l) s

/-- Cores that no budgeted program holds. -/
def State.freeCores (s : State) : List Nat := (upTo 128).filter (fun l => s.present l && (s.holder l).isNone)

/-- Whether ORDER keeps the main program of a TURN from starting: an earlier command of its queue has not retired (R229, R236). -/
def State.ordered (s : State) (k : Nat) (p : Prog) : Bool :=
  p.order && p.cause == 0 && s.turn.progs.any (fun x => decide (x.1 < k) && (match x.2.src, p.src with
    | .turn q _, .turn q' _ => q == q'
    | _, _ => false))

/-- Whether program `k` stands before all that wait for cores: a main program passes no fallback that waits (R495), and a step none
before it on the work list that the free cores are enough for (R494). -/
def State.firstFor (s : State) (free : Nat) (k : Nat) (p : Prog) : Bool :=
  p.cause != 0 || s.turn.progs.all (fun x => x.2.phase != .waiting
    || (x.2.cause == 0 && !(x.2.nCores != 0 && p.nCores != 0 && x.2.target == p.target && decide (x.1 < k ∧ x.2.nCores ≤ free))))

/-- The cores that a waiting program can have now: those a TURN names, or the lowest free ones. -/
def State.coresFor (s : State) (k : Nat) (p : Prog) : Option (List Nat) :=
  let free := s.freeCores
  if !s.firstFor free.length k p then none
  else match p.src with
    | .turn _ _ => if !s.ordered k p && p.cores.all free.contains then some p.cores else none
    | .step _ => if free.length ≥ p.nCores then some (free.take p.nCores) else none

/-- Gives a waiting program its cores (R494): their residents are pre-empted; a step's pages are named and may hold it
(R316). -/
def State.assign (s : State) (k : Nat) : State :=
  match s.prog? k with
  | none => s
  | some p =>
    match (if p.phase = .waiting ∧ p.target = s.turnNo then s.coresFor k p else none) with
    | none => s
    | some cores =>
      let fb := p.cause != 0
      let s := match p.src with
        | .step i => if fb then s else s.namePages p.part i
        | .turn _ _ => s
      let held := !fb && (match p.src with
        | .step i => s.pagesAway p.part i
        | .turn _ _ => false)
      let s := s.setProg k { p with
        cores := cores, got := true, saving := cores, phase := if fb then .fallback else .main, held := held, fbTol := s.tol }
      (cores.foldl (fun s l => s.beginPre l p.thread) s).startCores k

/-- STEP_CORE_ASSIGN (R494). -/
def execStepCoreAssign (i : Fin 262144) (s : State) : Host.Outcome State Fault Refusal :=
  match List.find? (fun (x : Nat × Prog) => x.2.src == .step i.val && x.2.phase == .waiting) s.turn.progs with
  | some (k, _) => .next (s.assign k)
  | none => .next s

/-- TURN programs of this turn that wait for their cores get them. -/
def State.assignTurns (s : State) : State :=
  s.turn.progs.foldl (fun s x => match x.2.src with
    | .turn _ _ => s.assign x.1
    | .step _ => s) s

/-- Main programs held for their pages start once these are local (R316). -/
def State.releaseHolds (s : State) : State :=
  s.turn.progs.foldl (fun s x => match x.2.src with
    | .step i =>
      if x.2.held && !s.pagesAway x.2.part i then (s.setProg x.1 { x.2 with held := false }).startCores x.1 else s
    | .turn _ _ => s) s

/-- RETURN_COMPLETE (R301): the page is local, and a step that it held may start. -/
def execReturnComplete (p : Fin 16) (page : BitVec 22) (s : State) : Host.Outcome State Fault Refusal :=
  .next (s.returnDone p.val page.toNat).releaseHolds

/-- SAVE_COMPLETE (R499): the program that waits for the core starts. -/
def execSaveComplete (c : Fin 128) (s : State) : Host.Outcome State Fault Refusal :=
  let l := c.val
  let x := s.cpre l
  if x.st ≠ .saving then .next s
  else
    let s := (s.setPre l { x with st := .saved }).bump Reg.seqPreempts 1
    match s.holder l with
    | some k => .next (s.startCores k)
    | none => .next s

/-! ### The end of a program (R47, R252, R496) -/

/-- The program has started on its cores, every thread of it is HALTED and its commands have retired (R252, R496). -/
def State.progDone (s : State) (k : Nat) (p : Prog) : Bool :=
  p.got && p.saving.isEmpty && !p.cores.isEmpty && p.cores.all (fun l => (s.thread l p.thread).st == .halted
    && (s.core l).queue.all (fun c => c.prog != some k) && (s.core l).running.all (fun r => r.cmd.prog != some k))

/-- The outcome of a program: its record is formed, its cores are free, and programs that wait for cores get them. -/
def State.endProg (s : State) (k : Nat) (p : Prog) (status : Nat) : State :=
  let s := s.setTurn { s.turn with progs := s.turn.progs.drop k }
  let s := p.cores.foldl (fun s l => s.endPre l) s
  let s := match p.src with
    | .turn q slot => s.recordNoTag q slot status p.irq
    | .step i => s.stepEnd (some k) p i status
  s.assignTurns

/-! ### Overruns (R42 to R46, R58) -/

/-- Consumption exceeds the main cost with its tolerance (R42). -/
def Prog.pastMain (p : Prog) : Bool := decide (64 * p.used > 256 * p.mainCost * (64 + p.tol))

/-- The cause of an overrun in its target turn (R46); of two conditions in one cycle, COST_EXCEEDED. -/
def State.overCause (s : State) (p : Prog) (cause : Nat) : Nat :=
  if s.turn.capFalls.any (fun f => decide (p.admitAt < f ∧ s.turn.ticks ≤ f + 16)) then 3
  else if s.turn.periodCuts.any (fun f => decide (p.admitAt < f ∧ s.turn.ticks ≤ f + 15)) then 4
  else if p.pastMain then 1
  else cause

/-- A program overruns (R42): it is to be stopped. -/
def State.overrun (s : State) (k : Nat) (p : Prog) (cause : Nat) : State :=
  s.setProg k { p with phase := .stopping, cause := s.overCause p cause, overStamp := s.time, overTurn := s.turnNo }

/-- COST_EXCEEDED (R42): a program that has completed has not overrun. -/
def execCostExceeded (prog : Nat) (s : State) : Host.Outcome State Fault Refusal :=
  match s.prog? prog with
  | some p =>
    if p.phase == .main && !s.progDone prog p && p.pastMain then .next (s.overrun prog p 1)
    else .next s
  | none => .next s

/-- CUTOVER (R42, R495): main programs of the class that run, or wait for cores, in this turn. -/
def execCutover (cls : Fin 16) (s : State) : Host.Outcome State Fault Refusal :=
  .next (s.turn.progs.foldl (fun s x =>
    let p := x.2
    let on := p.cls == cls.val && p.target == s.turnNo && p.cause == 0 && (p.phase == .main || p.phase == .waiting)
    if on && !s.progDone x.1 p then s.overrun x.1 p 2 else s) s)

/-- Words of overrun record `n` (R58). -/
def ovrRec (n : Nat) : Nat := 0x11000 + 0x20 * (n % 256)

/-- Writes an overrun record and counts the overrun (R43, R57, R58). -/
def State.writeOverrun (s : State) (k : Nat) (p : Prog) (outcome : Nat) : State :=
  let n := s.turn.ovrTotal
  let a := ovrRec n
  let src := match p.src with
    | .turn q _ => q
    | .step i => i + 2 ^ 31
  let w (s : State) (i v : Nat) : State := s.setReg (a + 4 * i) (BitVec.ofNat 32 v)
  let s := w s 0 p.overTurn
  let s := w s 1 (p.overTurn / 2 ^ 32 + p.cause * 2 ^ 16 + p.cls * 2 ^ 24 + outcome * 2 ^ 28)
  let s := w (w (w (w s 2 src) 3 p.mainCost) 4 (min (2 ^ 32 - 1) (p.used / 256))) 5 0
  let s := w (w s 6 p.overStamp) 7 (p.overStamp / 2 ^ 32)
  let s := s.setReg Reg.trnOvrWr (BitVec.ofNat 32 ((n + 1) % 256 + (n + 1) * 256))
  let s := s.setTurn { s.turn with ovrTotal := n + 1, sinceRead := s.turn.sinceRead + 1 }
  let s := (s.bump (Reg.trnOvrCnt p.cls) 1).raise 0 8
  let s := if s.turn.sinceRead ≥ 256 then s.raise 0 9 else s
  s.setProg k { p with logIdx := some n }

/-- Fills in OUTCOME and FB_CONSUMED of the record when the fallback has ended, unless the ring has overwritten it. -/
def State.closeOverrun (s : State) (p : Prog) (outcome : Nat) : State :=
  match p.logIdx with
  | some n =>
    if s.turn.ovrTotal > n + 256 then s
    else (s.setFld (ovrRec n + 4) 28 4 outcome).setReg (ovrRec n + 20) (BitVec.ofNat 32 (min (2 ^ 32 - 1) (p.fbUsed / 256)))
  | none => s

/-! ### Stopping (R43 to R45, R239, R253) -/

/-- A command that ends is no longer replayed (R124). -/
def State.leaveReplay (s : State) (l id : Nat) : State :=
  let p := s.under l / 17
  let sp := s.sill.spares.get {} p
  let sp := { sp with
    queue := sp.queue.filter (fun x => x != (l, id))
    work := if sp.work = .replay l id then .idle else sp.work }
  { s with sill := { s.sill with spares := s.sill.spares.put p sp } }

/-- Ends a running command at once (R239): ABORTED, its tile slots and handles given up. -/
def State.abortRun (s : State) (l id code : Nat) : State :=
  match s.runOf l id with
  | none => s
  | some r =>
    let s := (s.dropHandles l r).leaveReplay l id
    let s := if r.inVector then s.vecStop l r code else s.finish l id code
    match s.runOf l id with
    | some r => s.retire l { r with replaying := false }
    | none => s

/-- Ends a queued command at once. KEPT slots of the chain that it continues are freed (R148). -/
def State.abortQueued (s : State) (l : Nat) (c : Cmd) (code : Nat) : State :=
  let i := s.under l
  let s := s.setPhy i ((s.chainKept l c).foldl (fun p t => p.freeSlot t) (s.phy i))
  let k := s.core l
  (s.setCore l { k with queue := k.queue.filter (fun x => x.id != c.id) }).post l c code [] [] true

/-- Ends with `code` every command on core `l` that `mine` selects, and frees what waits for room. -/
def State.abortWhere (s : State) (l code : Nat) (mine : Cmd → Bool) : State :=
  let s := ((s.core l).queue.filter mine).foldl (fun s c => s.abortQueued l c code) s
  let s := (((s.core l).running.filter (fun r => mine r.cmd)).map (·.cmd.id)).foldl (fun s id => s.abortRun l id code) s
  s.wakeTcmd l

/-- Stops the threads of a program on the cores it holds and ends its commands (R43, R239): all tags of those threads are
free. -/
def State.stopProg (s : State) (k : Nat) (p : Prog) : State :=
  (if p.got then p.cores else []).foldl (fun s l =>
    let started := !p.saving.contains l
    let s := if started then s.stopThread l p.thread else s
    let s := s.abortWhere l 0x1D (fun c => c.prog == some k)
    if started then
      let c := s.core l
      s.setCore l { c with tags := c.tags.filter (fun e => e.2.ctx != .thread p.thread) }
    else s) s

/-- Whether a command is at a tile boundary (R101): no tile step of it is in the array, it drains no tile, and no request of it is in
flight. -/
def State.runAtBoundary (s : State) (l : Nat) (r : Run) : Bool :=
  !r.stages.any (·.busy) && !(r.inVector && (s.phy (s.under l)).cur.isSome && !r.replaying)
    && !(r.outstanding != 0 && r.engines.contains 2)

/-- COMMAND_RETIRE (R238): the command of tag `tag` of logical core `c` retires once its engines have finished; one that has been
stopped first lets the tile step in the array end (R261), and one that a reset of its port stops retires at its next tile boundary
(R466). -/
def execCommandRetire (c : Fin 128) (tag : Fin 4096) (s : State) : Host.Outcome State Fault Refusal :=
  match (s.core c.val).run tag.val with
  | some r =>
    if s.portStops r.cmd ∧ s.runAtBoundary c.val r then .next (s.abortRun c.val r.cmd.id 0xA2)
    else if r.done && !r.replaying && !r.stages.any (·.busy) then .next ((s.settle c.val r).retire c.val r) else .next s
  | none => .next s

/-- A reset of port `p` stops the commands that were read from queue `q` of it, at their next tile boundaries (R466). -/
def State.stopQueued (s : State) (q : Nat) : State :=
  let mine (c : Cmd) : Bool := match c.ctx with
    | .queue q' _ => q' == q
    | .thread _ => false
  (upTo 128).foldl (fun s l =>
    let s := ((s.core l).queue.filter mine).foldl (fun s c => s.abortQueued l c 0xA2) s
    let s := (((s.core l).running.filter (fun r => mine r.cmd && s.runAtBoundary l r)).map (·.cmd.id)).foldl
      (fun s id => s.abortRun l id 0xA2) s
    s.wakeTcmd l) s

/-- Whether the program can be stopped now: its commands are at tile boundaries, no thread of it waits on memory. -/
def State.atBoundary (s : State) (k : Nat) (p : Prog) : Bool :=
  p.cores.all (fun l => (p.saving.contains l || !(s.thread l p.thread).inAccess)
    && (s.core l).running.all (fun r => r.cmd.prog != some k || s.runAtBoundary l r))

/-- A program whose queue's port has been reset ends (R466); an overrun record of it closes without output. -/
def State.resetProg (s : State) (k : Nat) (p : Prog) : State := ((s.stopProg k p).closeOverrun p 3).endProg k p 0xA2

/-- MAIN_PROGRAM_STOP (R43, R45, R466, R495): the fallback starts on the cores that the main program held, or waits for cores when it
held none; without a fallback the program ends. -/
def execMainProgramStop (prog : Nat) (s : State) : Host.Outcome State Fault Refusal :=
  match s.prog? prog with
  | none => .next s
  | some p =>
    if (p.phase ≠ .stopping ∧ !p.reset) ∨ !s.atBoundary prog p then .next s
    else if p.reset then .next (s.resetProg prog p)
    else
      let s := s.stopProg prog p
      if p.fb then
        let s := (s.writeOverrun prog p (s.draw 4).toNat).drew
        let p := (s.prog? prog).getD p
        if !p.got then
          .next ((s.setProg prog { p with phase := .waiting }).assign prog)
        else .next ((s.setProg prog { p with phase := .fallback, fbTol := s.tol, held := false, saving := p.cores }).startCores prog)
      else .next ((s.writeOverrun prog p 2).endProg prog p 0x46)

/-- A fallback ends without output (R44). -/
def State.failFallback (s : State) (k : Nat) (p : Prog) : State := ((s.stopProg k p).closeOverrun p 3).endProg k p 0x47

/-- FALLBACK_OVERRUN (R44). -/
def execFallbackOverrun (prog : Nat) (s : State) : Host.Outcome State Fault Refusal :=
  match s.prog? prog with
  | none => .next s
  | some p =>
    if p.phase == .fallback && s.pastFallback p && !s.progDone prog p && s.atBoundary prog p then .next (s.failFallback prog p) else .next s

/-- A program whose threads are HALTED and whose commands have retired completes (R252, R496). -/
def State.completeProg (s : State) (k : Nat) (p : Prog) : State :=
  if !(p.phase == .main || p.phase == .fallback) || !s.progDone k p then s
  else if p.phase = .fallback then (s.closeOverrun p 1).endProg k p 0x45
  else s.endProg k p 0

/-- TURN_PROGRAM_COMPLETE (R252). -/
def execTurnProgramComplete (prog : Nat) (s : State) : Host.Outcome State Fault Refusal :=
  match s.prog? prog with
  | some p => match p.src with
    | .turn _ _ => .next (s.completeProg prog p)
    | .step _ => .next s
  | none => .next s

/-- STEP_COMPLETE (R496). -/
def execStepComplete (i : Fin 262144) (s : State) : Host.Outcome State Fault Refusal :=
  match List.find? (fun (x : Nat × Prog) => x.2.src == .step i.val && x.2.phase != .waiting) s.turn.progs with
  | some (k, p) => .next (s.completeProg k p)
  | none => .next s

/-- The turn of a program ends with the program still there (R44, R47): what has halted completes; a fallback fails; a main
program overruns and, as no turn is left, its fallback fails too. -/
def State.endTurn1 (s : State) (k : Nat) : State :=
  match s.prog? k with
  | none => s
  | some p =>
    if s.progDone k p ∧ p.phase ≠ .stopping then s.completeProg k p
    else if p.phase = .fallback ∨ (p.phase = .waiting ∧ p.cause ≠ 0) then s.failFallback k p
    else
      let p := if p.cause = 0 then { p with cause := s.overCause p 2, overStamp := s.time, overTurn := s.turnNo } else p
      let s := s.stopProg k p
      if p.fb then (s.writeOverrun k p 3).endProg k p 0x47 else (s.writeOverrun k p 2).endProg k p 0x46

/-- Ends what is left of the turn that a tick ends. -/
def State.endTurn (s : State) : State :=
  ((s.turn.progs.filter (fun x => decide (x.2.target ≤ s.turnNo))).map (·.1)).foldl (fun s k => s.endTurn1 k) s

/-- Consumption of one cycle (R41): every core that is assigned to a program counts. -/
def State.consumeCycle (s : State) : State :=
  s.setTurn { s.turn with progs := s.turn.progs.map (fun x =>
    let p := x.2
    (x.1, if !p.got then p
      else if p.phase == .main || p.phase == .stopping then { p with used := p.used + p.cores.length }
      else if p.phase = .fallback then { p with fbUsed := p.fbUsed + p.cores.length } else p)) }

/-! ### The work list (R488, R492, R495) -/

/-- The program of a listed step (R493). -/
def State.stepProg (s : State) (i : Nat) : Prog :=
  let g := s.seqProg i
  let fb := s.pgf g 0 51 1 == 1
  { src := .step i, cls := s.sf i 0 8 4, target := s.turnNo, mainCost := s.pgf g 0x10 0 32, fb := fb
    fbCost := if fb then s.pgf g 0x10 32 32 else 0, mainAddr := s.pgf g 0 0 48, fbAddr := s.pgf g 8 0 48, thread := s.pgf g 0 48 3
    cores := [], nCores := s.pgf g 0x18 0 7 + 1, part := s.seqPart i, prio := s.sf i 0 12 2
    admitAt := (s.turn.standing.get { cls := 0, main := 0, fb := 0, at_ := 0 } i).at_, tol := s.tol
    tokens := min (s.seqTokens i - s.seqDone i) (s.sf i 8 32 16 + 1) }

/-- What a tick does to the entries of the table: RETIRING ones are FREE; ACTIVE ones whose partition, report queue or core
count no longer fits are FAULTED, a step of theirs reported with STEP_NO_CORES (R488, R495). -/
def State.seqTick (s : State) : State :=
  let s := (s.seqIn 2).foldl (fun s i => s.setSf i 0 0 3 0) s
  (s.seqIn 1).foldl (fun s i =>
    let p := s.seqPart i
    let r := s.seq.act.get .joinery i
    if s.pgf (s.seqProg i) 0x18 0 7 + 1 > s.capCores then
      let s := if (s.seq.marked.find? i).isSome ∧ s.seqTokens i > s.seqDone i ∧ s.fld Reg.seqCtl 0 1 = 1 then
          s.stepEnd none (s.stepProg i) i 0x48 else s
      s.seqFault i
    else if !(s.partValid p && s.ownsPart r p && (s.queue (s.seqRptq i)).st == .active) then s.seqFault i
    else s) s

/-- Whether `a` stands before `b` on the work list (R492). -/
def State.listedBefore (s : State) (a b : Nat) : Bool :=
  let key (i : Nat) : Nat := ((3 - s.sf i 0 12 2) * 16 + s.sf i 0 8 4) * 2 ^ 18 + i
  decide (key a ≤ key b)

/-- Builds the work list (R492), on a module that does more than management (R541); CYCLES lies within 160 + 2 × L. -/
def State.buildList (s : State) : State :=
  if s.fld Reg.seqCtl 0 1 = 0 ∨ s.closed then s
  else
    let on := (s.seq.marked.map (·.1)).filter (fun i => s.seqState i == 1 && decide (s.seqTokens i > s.seqDone i))
    let list := on.mergeSort s.listedBefore
    let n := list.length
    let s := s.setSeq { s.seq with marked := [] }
    let s := (s.setReg Reg.seqList (BitVec.ofNat 32 n)).setReg Reg.seqBuild (BitVec.ofNat 32 ((s.draw 32).toNat % (160 + 2 * n + 1)))
    list.foldl (fun s i =>
      s.setTurn { s.turn with progs := s.turn.progs.put s.turn.nextProg (s.stepProg i), nextProg := s.turn.nextProg + 1 }) s.drew

/-- TURN programs of the turn that starts are watched from now on, with the tolerance now in force (R42), and get their cores
(R252, R494). -/
def State.startTurns (s : State) : State :=
  let s := s.setTurn { s.turn with progs := s.turn.progs.map (fun x =>
    (x.1, if x.2.target = s.turnNo ∧ x.2.phase = .waiting then { x.2 with tol := s.tol } else x.2)) }
  s.assignTurns

end Sys2Proof.Machine
end

