-- ==== Sys2Proof/Machine/Sill.lean ====
section
/-!
DEFINITION. Machine/Sill.lean: the Sill: crossing (R514 to R518), replays and sampled duplicates (R519 to R525), the SILL
command and the two-phase update (R528 to R535), the rolling test and cores out of service (R536 to R541), and the rolls
that a commit brings (R88, R89, R93).
-/
namespace Sys2Proof.Machine

/-! ### Scale slots roll (R87 to R90) -/

/-- The rule of R89: the new exponent for maximum `amax` (binary32), or none while it keeps its value. -/
def rollExp (fmt margin amax : Nat) : Option Int :=
  match vB32 amax with
  | .fin _ m q =>
    if m = 0 then none
    else
      let fmax := if fmt = 3 then 480 else if fmt = 4 then 57344 else 6
      let j₀ : Int := (Nat.log2 fmax : Int) - leadExp m q
      let fits (j : Int) : Bool := finCmp false m (q + j) false fmax 0 != .gt
      let j := if fits j₀ then j₀ else j₀ - 1
      some (max (-126) (min 126 (j - margin)))
  | _ => none

/-- One slot clears what it has folded (R88). -/
def State.clearSlot (s : State) (i : Nat) : State :=
  let a := slotRec i
  (((s.setRec (a + 8) 0 32 0).setRec a 10 1 0).setRec (a + 8) 32 32 0)

/-- One slot with PEND_VALID rolls (R88). -/
def State.rollSlot (s : State) (i : Nat) : State :=
  let a := slotRec i
  let count := s.rec_ a 20 5
  let head := if count = 0 then s.rec_ a 16 4 else (s.rec_ a 16 4 + 1) % 16
  let n := min 16 (count + 1)
  let s := ((s.setRec (a + 0x10 + 4 * head) 0 32 (s.rec_ (a + 8) 0 32)).setRec a 16 4 head).setRec a 20 5 n
  let s := s.clearSlot i
  let amax := (upTo n).foldl (fun x k => max x (s.rec_ (a + 0x10 + 4 * ((head + 16 - k) % 16)) 0 32)) 0
  match rollExp (s.rec_ a 0 4) (s.rec_ a 4 4) amax with
  | some e => s.setRec (a + 4) 0 8 (unsigned 8 e)
  | none => s

/-- Slots whose PEND_VALID is 1, of the roll event `roll` and, if it is named, of a partition. -/
def State.rollers (s : State) (roll : Nat) (part : Option Nat) : List Nat :=
  ((s.mem.filter (fun c => decide (0xF000000000 ≤ c.1) && decide (c.1 < 0xF000080000) && c.1 % 128 == 1 && c.2.getLsbD 2)).map
    (fun c => (c.1 - 0xF000000000) / 128)).filter (fun i =>
      s.slotLive i && s.rec_ (slotRec i) 9 1 == roll && (part.isNone || part == some (s.rec_ (slotRec i) 12 4)))

def State.rollAll (s : State) (roll : Nat) (part : Option Nat) : State := (s.rollers roll part).foldl (fun s i => s.rollSlot i) s

/-- The loss scale of partition `p` at a commit, with overflow or clean (R93). -/
def State.lossCommit (s : State) (p : Nat) (ovf : Bool) : State :=
  let a := lossRec p
  let e := signed 8 (s.rec_ a 0 8)
  let s := if ovf then
      ((s.setRec a 0 8 (unsigned 8 (max (-64) (e - 1)))).setRec (a + 8) 0 32 0).bumpRec (a + 0x0C) 0 32 1
    else
      let n := s.rec_ (a + 8) 0 32 + 1
      if n ≥ s.rec_ (a + 4) 0 32 then (s.setRec a 0 8 (unsigned 8 (min 64 (e + 1)))).setRec (a + 8) 0 32 0 else s.setRec (a + 8) 0 32 n
  s.setRec (a + 0x10) 0 1 0

/-! ### Step records (R529 to R534) -/

/-- Field of step record `j`. -/
def State.stf (s : State) (j off lo w : Nat) : Nat := s.rec_ (stepRec j + off) lo w
def State.stepState (s : State) (j : Nat) : Nat := s.stf j 0 0 3
def State.stepGroup (s : State) (j : Nat) : Nat := s.stf j 0 16 6

/-- Armed group records of partition `p`. -/
def State.armed (s : State) (p : Nat) : List Nat := (upTo 64).filter (fun g => s.groupState g == 2 && s.groupPart g == p)

/-- REDs and GATHs on group `g` that are held at decode from identity `from_` on (R339): (core, command). -/
def State.heldFrom (s : State) (g from_ : Nat) : List (Nat × Cmd) :=
  s.log.flatMap (fun k => (k.2.queue.filter (fun c =>
    let d : Desc := c.desc
    decide (c.id ≥ from_) && ((d.cls == 5 && d.f 0x28 50 1 == 1 && d.f 0x34 0 6 == g) || (d.cls == 7 && d.f 0x28 0 6 == g)))).map
      (fun c => (k.1, c)))

/-- The commit's part for the armed records of a partition (R338, R339): with SWITCH the held commands are refused and the
layouts change; without, they proceed. -/
def State.switchAll (s : State) (p : Nat) (sw : Bool) : State :=
  let gs := s.armed p
  let s := if !sw then s
    else gs.foldl (fun s g =>
      let held := match s.groups.drainAt.find? g with
        | some n => s.heldFrom g n
        | none => []
      ((held.foldl (fun s x => s.abortQueued x.1 x.2 0xD1) s).shutSwitch g).switchGroup g) s
  let s := s.setGroups { s.groups with drainAt := s.groups.drainAt.filter (fun x => !gs.contains x.1) }
  if sw then s.releaseAhead else s

/-- Outcomes of a step: the rows of R532. -/
inductive StepOut where
  | commit | overflow | abort
  deriving DecidableEq, Repr

def StepOut.code : StepOut → Nat
  | .commit => 1
  | .overflow => 2
  | .abort => 3

/-- Everything that an outcome does, in one action (R532, R556): GEN, STEP, counters, rolls, loss scale, layout switch and
snapshot. The record returns to IDLE. -/
def State.actStep (s : State) (j : Nat) (o : StepOut) (sw ok fail : Bool) : State :=
  let a := stepRec j
  let p := s.stf j 0 12 4
  let gen := s.stf j 4 0 32
  let s : State := match o with
    | .abort =>
      let s := ((s.rollers 0 (some p)).foldl (fun (s : State) i => s.clearSlot i) s).setRec (lossRec p + 0x10) 0 1 0
      let s := s.setGroups { s.groups with drainAt := s.groups.drainAt.filter (fun x => s.groupPart x.1 != p) }
      let s := match s.shutOf j with
        | some i => s.takeFails i
        | none => s
      (s.shutMark j).bumpRec (a + 0x14) 0 32 1
    | _ =>
      let ovf := decide (o = .overflow)
      let s := ((s.rollAll 0 (some p)).lossCommit p ovf).setRec (a + 8) 0 32 (s.stf j 8 0 32 + 1)
      let s := if ovf then s.bumpRec (a + 0x10) 0 32 1 else (s.setRec (a + 4) 0 32 (gen + 1)).bumpRec (a + 0x0C) 0 32 1
      let s := (s.shutCommit j gen ok fail).switchAll p sw
      s.setRec (a + 0x20) 51 1 (b2n sw)
  let s := ((s.setRec (a + 0x20) 0 48 s.turnNo).setRec (a + 0x20) 48 3 o.code).setRec a 0 3 0
  { s with sill := { s.sill with steps := s.sill.steps.drop j } }

/-- The STEP command of a record finishes (R532, R533). -/
def State.endStep (s : State) (j status : Nat) : State :=
  match s.sill.steps.find? j with
  | some x => s.finish x.core x.id status
  | none => s

def stepStatus : StepOut → Nat
  | .commit => 0
  | .overflow => 0x31
  | .abort => 0x32

/-- Ranks in the fixed tree of a record's group, and the identifier of a rank (R531). -/
def State.treeSize (s : State) (g : Nat) : Nat := s.inner g * s.outer g
def State.rankId (s : State) (g rank : Nat) : Nat :=
  s.member (s.gf g 0x10 0 48) (rankMember rank 0 (s.inner g) (s.outer g))

/-- Ranks that send READY to rank `r`, from the lowest level up: the holders of the right children of the nodes it holds. -/
def treeChildren (n r : Nat) : List Nat :=
  ((upTo (treeDepth n)).filter (fun l => r % 2 ^ (l + 1) == 0 && decide (r + 2 ^ l < n))).map (fun l => r + 2 ^ l)

/-- The holder of the parent of the highest node that rank `r` holds. -/
def treeParent (r : Nat) : Nat := r - 2 ^ ((upTo 32).find? (fun l => r.testBit l)).getD 0

/-- ARG fields of READY and COMMIT (R531, R532, R555). -/
def argBit (arg i : Nat) : Bool := arg / 2 ^ i % 2 == 1
def stepArg (j g step : Nat) (b10 b11 b12 b13 b14 : Bool) : Nat :=
  j + g * 2 ^ 4 + b2n b10 * 2 ^ 10 + b2n b11 * 2 ^ 11 + b2n b12 * 2 ^ 12 + b2n b13 * 2 ^ 13 + b2n b14 * 2 ^ 14 + step * 2 ^ 32

/-- COMMIT goes down the tree from this module, from the top level (R532, R324). -/
def State.sendCommit (s : State) (g arg : Nat) : State :=
  (treeChildren (s.treeSize g) (s.myRank g 0)).reverse.foldl (fun s r => s.tell (s.rankId g r) 9 (s.groupEpoch g) arg) s

/-- What a COMMIT with this ARG does here (R532). -/
def State.takeCommit (s : State) (j arg : Nat) : State :=
  let o := if argBit arg 12 then StepOut.abort else if argBit arg 10 then .overflow else .commit
  (s.endStep j (stepStatus o)).actStep j o (argBit arg 11 && !argBit arg 12) (argBit arg 13) (argBit arg 14)

/-- A Revolve pass of the partition has failed and was not armed again (R290). -/
def State.passFailed (s : State) (p : Nat) : Bool := (upTo 16).any (fun r => s.ringPart r == p && s.ringState r == 4)

/-- READY of this module's node is formed and sent, or, at the root, COMMIT (R531, R532); `late` sets FAIL (R533), as does a
failed pass (R290). -/
def State.sendReady (s : State) (j : Nat) (x : StepRun) (late : Bool) : State :=
  let g := s.stepGroup j
  let step := s.stf j 8 0 32
  let r := s.myRank g 0
  let args := (treeChildren (s.treeSize g) r).filterMap (fun c => x.got.find? c)
  let p := s.stf j 0 12 4
  let ovf := s.rec_ (lossRec p + 0x10) 0 1 == 1 || args.any (argBit · 10)
  let drained := !late && (s.armed p).all (fun g => s.gf g 0x30 0 11 == 0) && args.all (argBit · 11)
  let fail := late || x.own != some 0 || s.passFailed p || args.any (argBit · 12)
  let take := s.takeTerm j || args.any (argBit · 13)
  let kept := !late && s.keptTerm j && args.all (argBit · 14)
  if r = 0 then
    let arg := stepArg j g step ovf (drained && !fail) fail kept (take && !kept)
    (s.sendCommit g arg).takeCommit j arg
  else
    let s := s.tell (s.rankId g (treeParent r)) 8 (s.groupEpoch g) (stepArg j g step ovf drained fail take kept)
    let s := s.setRec (stepRec j) 0 3 2
    let own := (s.armed p).all (fun g => s.gf g 0x30 0 11 == 0)
    let s := if own && !late then s.setGroups { s.groups with drainAt := (s.armed p).foldl (fun t g => t.put g s.nextCmd) s.groups.drainAt }
      else s
    { s with sill := { s.sill with steps := s.sill.steps.put j { x with sentTurn := s.turn.ticks, sentFail := fail } } }

/-- Whether every command of a context before identity `id` has retired and crossed (R528). -/
def State.allCrossed (s : State) (l : Nat) (x : Ctx) (id : Nat) : Bool :=
  s.live.all (fun y => !(sameCtx y.1 y.2.ctx l x && decide (y.2.id < id)))
    && s.sill.retired.all (fun e => !(sameCtx e.core e.ctx l x && decide (e.id < id)))

/-- The first outcome among them that is not a crossing (R528), 0 when there is none; a WAIT or STEP reports it once. -/
def State.waitOutcome (s : State) (l : Nat) (x : Ctx) (id : Nat) : Nat × State :=
  let mine (o : Nat × Nat × Ctx × Nat) : Bool := sameCtx o.2.1 o.2.2.1 l x && decide (o.1 < id)
  let first := (s.sill.outcomes.filter mine).foldl (fun (b : Option (Nat × Nat)) o =>
    match b with
    | some (i, c) => if o.1 < i then some (o.1, o.2.2.2) else some (i, c)
    | none => some (o.1, o.2.2.2)) none
  ((first.map (·.2)).getD 0, s.setSill { s.sill with outcomes := s.sill.outcomes.filter (fun o => !mine o) })

/-- A record in COLLECT goes as far as it can (R531): its WAIT part ends, and its READY is sent once every child's is in. -/
def State.collect (s : State) (j : Nat) : State :=
  match s.sill.steps.find? j with
  | none => s
  | some x =>
    if s.stepState j ≠ 1 then s
    else
      let (x, s) : StepRun × State := match x.own, s.runOf x.core x.id with
        | none, some r =>
          if s.allCrossed x.core r.cmd.ctx x.id then
            let (st, s) := s.waitOutcome x.core r.cmd.ctx x.id
            ({ x with own := some st }, s)
          else (x, s)
        | _, _ => (x, s)
      let s := s.setSill { s.sill with steps := s.sill.steps.put j x }
      let g := s.stepGroup j
      let kids := treeChildren (s.treeSize g) (s.myRank g 0)
      if x.own.isSome && kids.all (fun c => (x.got.find? c).isSome) then s.sendReady j x false else s

def State.collectAll (s : State) : State := s.sill.steps.foldl (fun s x => s.collect x.1) s

/-! ### Crossing (R514) -/

/-- Whether a retired command may cross (R514). -/
def State.mayCross (s : State) (e : SillEnt) : Bool :=
  !e.dup && !e.replay && e.links.isEmpty
    && s.sill.retired.all (fun x => !(decide (x.id < e.id) && x.writes.any (fun w => e.reads.any (overlap w))))

/-- SILL_CROSSING (R514, R518): its retained ranges are free, the messages made from its output are confirmed, and steps
that waited for it go on. -/
def execSillCrossing (id : Nat) (s : State) : Host.Outcome State Fault Refusal :=
  match s.sill.retired.find? (fun e => e.id == id) with
  | some e =>
    if s.mayCross e then
      let s := s.setSill { s.sill with retired := s.sill.retired.filter (fun x => x.id != id) }
      .next ((s.cutNodes (some id) none).confirmMsgs (some id) none).collectAll
    else .next s
  | none => .next s

/-! ### Cores out of service (R538 to R541) -/

def State.spare (s : State) (p : Nat) : Spare := s.sill.spares.get {} p
def State.setSpare (s : State) (p : Nat) (x : Spare) : State := s.setSill { s.sill with spares := s.sill.spares.put p x }

/-- A logical core is at a pre-emption point and holds no budgeted program (R498, R536). -/
def State.atPoint (s : State) (l : Nat) : Bool := s.preReady l && (s.holder l).isNone && s.enginesStopped l

/-- The resident of logical core `l` is saved and restored onto physical core `i`, which now carries `l` (R536): what the
YIELD in force, or the lack of one, does not keep has no defined contents there. -/
def State.handOver (s : State) (l i : Nat) : State :=
  let (regs, slots, ranges) := s.liveParts l
  let kept := if (s.cpre l).saved.isSome then {} else (s.phy (s.under l)).keep regs slots ranges
  let s := s.openPhys i kept
  { s with coreMap := s.coreMap.put l (some i) }.bump Reg.seqPreempts 1

/-- The context of logical core `l` is lost (R540): its commands retire with SILL_CORE_LOST, its threads fault with cause
BUS, and it is absent. -/
def State.loseCore (s : State) (l : Nat) : State :=
  let s := match (s.cpre l).saved with
    | some v =>
      let s := s.setPre l {}
      v.runs.foldl (fun (s : State) (r : Run) => s.post l r.cmd 0x35 [] [] true) s
    | none => s.setPre l {}
  let s := s.abortWhere l 0x35 (fun _ => true)
  let s := (upTo 8).foldl (fun s t => s.except l t 5 0 none) s
  { s with coreMap := s.coreMap.put l none }

/-- Cores of panel `p` out of service. -/
def State.outCount (s : State) (p : Nat) : Nat :=
  ((upTo 17).filter (fun q => s.fld (Reg.silPanel p + 8) q 1 == 1)).length

/-- A panel enters DEAD (R539, R541): no logical slot of it is left, and every command in flight retires with SILL_CORE_LOST: what
core queues and engines hold, what waits for room in them, and the programs of TURN commands and steps. -/
def State.panelDead (s : State) (p : Nat) : State :=
  let s := ((upTo 16).filter (fun q => s.present (16 * p + q))).foldl (fun s q => s.loseCore (16 * p + q)) s
  let s := s.turn.progs.foldl (fun s x => match s.prog? x.1 with
    | some p => ((s.stopProg x.1 p).closeOverrun p 3).endProg x.1 p 0x35
    | none => s) s
  let s := (upTo 128).foldl (fun s l => s.abortWhere l 0x35 (fun _ => true)) s
  s.host.queues.foldl (fun s x =>
    let waits := (s.queue x.1).fetched
    waits.foldl (fun s d => s.recordNoTag x.1 d.1 0x35 (Desc.irq d.2)) (s.setQueue x.1 { s.queue x.1 with fetched := [] })) s

/-- A core out of service that still carries a slot hands it to the spare at a pre-emption point, or the slot is lost when no
spare can take it (R538, R540). -/
def State.leave (s : State) (i : Nat) : State :=
  let p := i / 17
  let gone (s : State) : State := s.setSill { s.sill with leaving := s.sill.leaving.drop i }
  match s.logOf i with
  | none => gone s
  | some l =>
    match s.spareOf p with
    | some j =>
      if s.atPoint l && (s.spare p).work == .idle && j != i then (gone (s.handOver l j)).setFld (Reg.silPanel p) 2 5 0x1F else s
    | none => if (s.spare p).work == .idle then gone (s.loseCore l) else s

/-- Every core that is leaving goes as far as it can. -/
def State.leaveAll (s : State) : State := s.sill.leaving.foldl (fun s x => s.leave x.1) s

/-- Physical core `i` is taken out of service (R538, R539). -/
def State.outOfService (s : State) (i : Nat) : State :=
  let p := i / 17
  let q := i % 17
  if s.fld (Reg.silPanel p + 8) q 1 = 1 then s
  else
    let s := (s.setFld (Reg.silPanel p + 8) q 1 1).raise 3 5
    let s := if s.spareOf p = some i then s.setFld (Reg.silPanel p) 2 5 0x1F else s
    let st := min 3 (s.outCount p)
    let s := (s.setFld (Reg.silPanel p) 0 2 st).raise 3 6
    let s := (s.fault 0x0E (if st = 3 then 4 else 3) st i 0).replace 1
    let s := if st = 2 then s.replace 4 else s
    if st = 3 then (s.replace 5).panelDead p
    else (s.setSill { s.sill with leaving := s.sill.leaving.put i () }).leave i

/-- Check failures that take a core out (SIL_CTL.FAIL_LIMIT). -/
def State.failLimit (s : State) : Nat := max 1 (s.fld Reg.silCtl 13 3)

/-- A core whose count has reached the limit leaves service (R538). -/
def State.judge (s : State) (i : Nat) : State :=
  if s.fld (Reg.silCoreChk i) 0 8 ≥ s.failLimit then s.outOfService i else s

/-! ### Replays (R519 to R522) -/

/-- The sampled command of a duplicate crosses without it (R520). -/
def State.abandonDup (s : State) (l id : Nat) : State :=
  let s := match s.runOf l id with
    | some r => s.setRun l { r with sampled := false }
    | none => s
  (s.setSill { s.sill with retired := s.sill.retired.map (fun e => if e.id = id then { e with dup := false } else e) }).bump
    Reg.silDupAbandon 1

/-- A test of position `q` is queued (R537). -/
def State.queueTest (s : State) (p q : Nat) : State := s.setFld (Reg.silPanel p + 4) q 1 1

/-- A retired command that its duplicate did not match. -/
def State.dupEnt (s : State) (id : Nat) : Bool := s.sill.retired.any (fun e => e.id == id && e.replay)

/-- The end of the replay of a command that its duplicate did not match (R525). -/
def State.endDup (s : State) (p l id : Nat) (like : Nat) : State :=
  let keep (e : SillEnt) : SillEnt := if e.id = id then { e with replay := false } else e
  let spare := s.spareOf p
  let chargeSpare (s : State) : State := match spare with
    | some j => ((s.charge j).queueTest p (j % 17)).judge j
    | none => s
  if like = 0 then
    -- the original was wrong: its output is rewritten, and messages made from it are retracted (R518)
    let s := (s.setSill { s.sill with retired := s.sill.retired.map keep }).retractMsgs (some id) none
    ((s.charge (s.under l)).judge (s.under l))
  else if like = 1 then chargeSpare (s.setSill { s.sill with retired := s.sill.retired.map keep })
  else
    let e := s.sill.retired.find? (fun e => e.id == id)
    let s := s.setSill { s.sill with
      retired := s.sill.retired.filter (fun e => e.id != id), lost := s.sill.lost ++ (e.bind (·.prog)).toList
      outcomes := s.sill.outcomes ++ [(id, l, (e.map (·.ctx)).getD (.thread 0), 0x30)] }
    let k := s.core l
    let s := (s.setCore l { k with doneStatus := k.doneStatus.put id 0x30 }).retractMsgs (some id) none
    (s.checkFailed (s.under l)).collectAll

/-! ### The SILL command (R528, R531) -/

/-- The running SILL command of a tag with operation `op`. -/
def State.sillRun (s : State) (l tag op : Nat) : Option Run :=
  match (s.core l).run tag with
  | some r => if Desc.cls r.cmd.desc == 10 && Desc.f r.cmd.desc 0x10 0 2 == op && !r.done && !r.issuedAll then some r else none
  | none => none

/-- SILL_WAIT (R528). -/
def execSillWait (c : Fin 128) (tag : Fin 4096) (s : State) : Host.Outcome State Fault Refusal :=
  match s.sillRun c.val tag.val 0 with
  | none => .next s
  | some r =>
    if s.allCrossed c.val r.cmd.ctx r.cmd.id then
      let (st, s) := s.waitOutcome c.val r.cmd.ctx r.cmd.id
      .next (s.finish c.val r.cmd.id st)
    else .next s

/-- SILL_STEP (R531): the record enters COLLECT; a record that another STEP took meanwhile refuses it (R530). -/
def execSillStep (c : Fin 128) (tag : Fin 4096) (s : State) : Host.Outcome State Fault Refusal :=
  match s.sillRun c.val tag.val 1 with
  | none => .next s
  | some r =>
    let j := Desc.f r.cmd.desc 0x10 4 4
    if s.stepState j ≠ 0 ∨ s.stf j 8 0 32 ≠ Desc.f r.cmd.desc 0x14 0 32 then .next (s.finish c.val r.cmd.id 0x34)
    else
      let early := ((s.sill.steps.find? j).map (·.got)).getD []
      let x : StepRun := {
        core := c.val, id := r.cmd.id, got := early.filter (fun m => m.2 / 2 ^ 32 == s.stf j 8 0 32), collectTurn := s.turn.ticks }
      let s := (s.setRun c.val { r with issuedAll := true }).setRec (stepRec j) 0 3 1
      .next ((s.setSill { s.sill with steps := s.sill.steps.put j x }).collect j)

/-- A READY or COMMIT that comes too late (R533). -/
def State.stepLate (s : State) (j : Nat) : State := s.bumpRec (stepRec j + 0x28) 0 32 1

/-- A READY for record `j` arrives from module `src` (R531, R533): kept while the record has not yet entered COLLECT. -/
def State.takeReady (s : State) (src arg : Nat) : State :=
  let j := arg % 16
  let g := s.stepGroup j
  let kids := treeChildren (s.treeSize g) (s.myRank g 0)
  match kids.find? (fun r => s.rankId g r == src) with
  | some r =>
    if arg / 2 ^ 32 ≠ s.stf j 8 0 32 ∨ s.stepState j > 1 then s.stepLate j
    else
      let x := s.sill.steps.get { core := 0, id := 0 } j
      (s.setSill { s.sill with steps := s.sill.steps.put j { x with got := x.got.put r arg } }).collect j
  | none => s.stepLate j

/-- READY (R531). -/
def execReady (p : Fin 6) (vc : Fin 4) (s : State) : Host.Outcome State Fault Refusal :=
  s.onHead p.val vc.val 8 (fun _ f => some (s.takeReady f.src f.arg))

/-- COMMIT (R532): it goes on down the tree and is acted on. -/
def execCommit (p : Fin 6) (vc : Fin 4) (s : State) : Host.Outcome State Fault Refusal :=
  s.onHead p.val vc.val 9 (fun _ f =>
    let j := f.arg % 16
    if (s.stepState j == 1 || s.stepState j == 2) && f.arg / 2 ^ 32 == s.stf j 8 0 32 then
      some ((s.sendCommit (s.stepGroup j) f.arg).takeCommit j f.arg)
    else some (s.stepLate j))

/-- STEP_CHILD_TIMEOUT (R533): READY with FAIL set. -/
def execStepChildTimeout (j : Fin 16) (s : State) : Host.Outcome State Fault Refusal :=
  let j := j.val
  match s.sill.steps.find? j with
  | some x =>
    let g := s.stepGroup j
    let waits := (treeChildren (s.treeSize g) (s.myRank g 0)).any (fun c => (x.got.find? c).isNone)
    if s.stepState j = 1 ∧ waits ∧ s.turn.ticks ≥ x.collectTurn + s.stf j 0 24 8 then .next (s.sendReady j x true) else .next s
  | none => .next s

/-- A record that has sent its READY without FAIL enters IN_DOUBT (R533, R576). -/
def State.enterDoubt (s : State) (j : Nat) : State :=
  let a := stepRec j
  let s := ((s.setRec a 0 3 3).bumpRec (a + 0x18) 0 32 1).setRec (a + 0x20) 48 3 4
  let s := s.setRec (a + 0x20) 0 48 s.turnNo
  let s := match s.shutOf j with
    | some i => s.takeFails i
    | none => s
  ((s.shutMark j).setSill { s.sill with steps := s.sill.steps.drop j }).raise 3 7

/-- STEP_COMMIT_TIMEOUT (R533): what it sent decides: an abort, or IN_DOUBT. -/
def execStepCommitTimeout (j : Fin 16) (s : State) : Host.Outcome State Fault Refusal :=
  let j := j.val
  match s.sill.steps.find? j with
  | some x =>
    if s.stepState j = 2 ∧ s.turn.ticks ≥ x.sentTurn + s.stf j 0 24 8 then
      if x.sentFail then .next ((s.endStep j 0x32).actStep j .abort false false false)
      else .next ((s.endStep j 0x33).enterDoubt j)
    else .next s
  | none => .next s

/-- A write of word 0 of step record `j` that carries RESOLVE (R534). -/
def State.resolveStep (s : State) (w : Writer) (j : Nat) (v : Word) : State :=
  if !s.writesFor w (s.stf j 0 12 4) ∨ s.stepState j ≠ 3 then s
  else match bits v 3 3 with
    | 1 => s.actStep j .commit (bit v 6) false false
    | 2 => s.actStep j .overflow (bit v 6) false false
    | 3 => s.actStep j .abort false false false
    | _ => s

/-- RESOLVE (R534). -/
def execResolve (w : Writer) (j : Fin 16) (v : Word) (s : State) : Host.Outcome State Fault Refusal :=
  .next (s.resolveStep w j.val v)

/-! ### The rolling test (R536, R537) -/

/-- Position that panel `p` tests next: a requested one first, then the schedule's, after LAST_TESTED. -/
def State.nextTest (s : State) (p : Nat) : Option Nat :=
  let r := Reg.silPanel p
  let ok (q : Nat) : Bool := s.fld (r + 8) q 1 == 0
  match (upTo 17).find? (fun q => s.fld (r + 4) q 1 == 1 && ok q) with
  | some q => some q
  | none =>
    if s.fld Reg.silCtl 4 1 = 0 then none
    else ((upTo 17).map (fun k => (s.fld r 12 5 + 1 + k) % 17)).find? ok

/-- ROLLING_TEST_START (R536, R537): the core under test hands its logical slot to the spare at a pre-emption point and begins
its self-test; the spare itself is tested as it stands. -/
def execRollingTestStart (panel : Fin 8) (s : State) : Host.Outcome State Fault Refusal :=
  let p := panel.val
  let r := Reg.silPanel p
  let x := s.spare p
  match s.nextTest p, s.spareOf p with
  | some q, some j =>
    if x.work != .idle || !x.queue.isEmpty then .next s
    else
      let i := 17 * p + q
      let start (s : State) : State :=
        ((((s.setFld (r + 4) q 1 0).setFld r 7 5 q).setSpare p { x with work := .test q })).openPhys i {}
      match s.logOf i with
      | none => if i = j then .next (start s) else .next s
      | some l => if s.atPoint l then .next (start ((s.handOver l j).setFld r 2 5 0x1F)) else .next s
  | _, _ => .next s

/-- ROLLING_TEST_COMPLETE (R536, R538): a core that passes is the panel's spare; one that fails is out of service. -/
def execRollingTestComplete (panel : Fin 8) (pass : Bool) (s : State) : Host.Outcome State Fault Refusal :=
  let p := panel.val
  let r := Reg.silPanel p
  match (s.spare p).work with
  | .test q =>
    -- the array of the core under test meets an injection, if one is pending (R129)
    let s := (s.takeInject (17 * p + q)).2
    let s := ((s.setSpare p { s.spare p with work := .idle }).setFld r 7 5 0x1F).setFld r 12 5 q
    if pass then .next (((s.setFld r 2 5 q).setFld (Reg.silCoreChk (17 * p + q)) 0 8 0).bump Reg.silTests 1)
    else .next (((s.setFld r 2 5 0x1F).raise 3 4).outOfService (17 * p + q))
  | _ => .next s

/-- A write to SIL_TEST_REQ (R543): a 1 requests, a 0 does nothing. -/
def State.writeTestReq (s : State) (p : Nat) (v : Word) : State :=
  let r := Reg.silPanel p + 4
  s.setReg r (s.reg r ||| (v &&& 0x1FFFF))

/-- TEST_REQUEST (R537). -/
def execTestRequest (r : Requester) (panel : Fin 8) (v : Word) (s : State) : Host.Outcome State Fault Refusal :=
  if s.hears r then .next (s.writeTestReq panel.val v) else .next s

end Sys2Proof.Machine
end

