-- ==== Sys2Proof/Machine/Records.lean ====
section
/-!
DEFINITION. Machine/Records.lean: the record areas at 0xF0_0000_0000 (R375, R463): which area an address lies in, who reads
it, and what a write of one of its words changes. Fields that the Z8 writes, and reserved bits, ignore writes.
-/
namespace Sys2Proof.Machine

/-- A record area, with the number of the record. -/
inductive Area where
  | slot (i : Nat)
  | loss (p : Nat)
  | ring (r : Nat)
  | pool (p : Nat)
  | group (g : Nat)
  | msgCtl
  | port (p : Nat)
  | window (n : Nat)
  | step (j : Nat)
  | shutter (i : Nat)
  | region (i : Nat)
  | entry (i : Nat)
  | program (p : Nat)
  deriving DecidableEq, Repr

/-- The record that holds device address `a`, and the offset in it. -/
def areaOf (a : Nat) : Option (Area × Nat) :=
  let at_ (base size n : Nat) (f : Nat → Area) : Option (Area × Nat) :=
    if base ≤ a ∧ a < base + size * n then some (f ((a - base) / size), (a - base) % size) else none
  at_ 0xF000000000 0x80 4096 .slot <|> at_ 0xF000080000 0x20 16 .loss <|> at_ 0xF000100000 0x80 16 .ring
    <|> at_ 0xF000110000 0x100 16 .pool <|> at_ 0xF000120000 0x80 64 .group <|> at_ 0xF000140000 0x100 1 (fun _ => .msgCtl)
    <|> at_ 0xF000140100 0x80 6 .port <|> at_ 0xF000140800 0x20 64 .window <|> at_ 0xF000150000 0x40 16 .step
    <|> at_ 0xF000160000 0x80 4 .shutter <|> at_ 0xF000200000 0x20 4096 .region <|> at_ 0xF001000000 0x20 262144 .entry
    <|> at_ 0xF001800000 0x20 4096 .program

/-- The partition of a record; the message control and port records have none. -/
def State.areaPart (s : State) (x : Area) : Option Nat :=
  match x with
  | .slot i => some (s.rec_ (slotRec i) 12 4)
  | .loss p => some p
  | .ring r => some (s.ringPart r)
  | .pool p => some p
  | .group g => some (s.groupPart g)
  | .msgCtl => none
  | .port _ => none
  | .window n => some (s.rec_ (winRec n) 12 4)
  | .step j => some (s.stf j 0 12 4)
  | .shutter i => some (s.shutPart i)
  | .region i => some (s.rec_ (regionRec i) 12 4)
  | .entry i => some (s.seqPart i)
  | .program p => some (s.pgf p 0x18 8 4)

/-- Whether a transfer reaches the area (R375). -/
def Area.byTransfer : Area → Bool
  | .msgCtl => false
  | .port _ => false
  | _ => true

/-- Whether a requester reads the record (R85, R91, R375): another partition's reads as 0, but a host reads every record whose
chapter restricts only writes. -/
def State.readsArea (s : State) (w : Writer) (x : Area) : Bool :=
  let own := match s.areaPart x with
    | some p => s.writesFor w p
    | none => true
  match w, x with
  | .joinery, _ => true
  | .part _, x => x.byTransfer && own
  | .host _, .slot _ => own
  | .host _, .loss _ => own
  | .host _, _ => true

/-- The word of the message control record that counts entries (R431). -/
def State.msgCount (s : State) (off : Nat) : Option Nat :=
  if off = 0x10 then some s.msg.ctxs.length else if off = 0x14 then some s.sill.prov.length else none

/-- The aligned word at `a` as a requester reads it. -/
def State.recWord (s : State) (w : Writer) (a : Nat) : Nat :=
  match areaOf a with
  | none => 0
  | some (x, off) =>
    if !s.readsArea w x then 0
    else match x with
      | .msgCtl => (s.msgCount off).getD (s.peekN a 4)
      | _ => s.peekN a 4

/-- The `n` bytes at `a` as a requester reads them. -/
def State.recRead (s : State) (w : Writer) (a n : Nat) : List Byte :=
  (upTo n).map (fun i => (toBytes 4 (s.recWord w ((a + i) / 4 * 4))).getD ((a + i) % 4) 0)

/-! ### Writes -/

/-- ENABLE of a tracked region (R380). -/
def State.regionWord (s : State) (w : Writer) (i : Nat) (v : Word) : State :=
  let a := regionRec i
  if !s.writesFor w (s.rec_ a 12 4) then s
  else
    let s := if w = .joinery then s.setRec a 12 4 (bits v 12 4) else s
    if !bit v 0 then s.setRec a 0 1 0
    else if s.rec_ a 0 1 = 1 then s
    else if s.inPart (s.rec_ a 12 4) (s.rec_ (a + 8) 0 48) (4096 * s.rec_ (a + 16) 0 32) && s.rec_ (a + 16) 0 32 != 0 then
      ((s.setRec a 0 1 1).setRec a 1 1 0).setRec (a + 16) 32 32 0
    else s.setRec a 1 1 1

/-- REGION_ENABLE (R380). -/
def execRegionEnable (w : Writer) (i : Fin 4096) (s : State) : Host.Outcome State Fault Refusal :=
  .next (s.regionWord w i.val (BitVec.ofNat 32 (s.peekN (regionRec i.val) 4) ||| 1))

/-- Word 0 of a ring record (R279, R282, R289). -/
def State.ringWord0 (s : State) (w : Writer) (r : Nat) (v : Word) : State :=
  let a := ringRec r
  if !s.writesFor w (s.ringPart r) then s
  else
    let s := if w = .joinery then s.setRec a 12 4 (bits v 12 4) else s
    let s := (s.setRec a 8 4 (bits v 8 4)).setRec a 16 8 (bits v 16 8)
    let s := if bit v 4 then s.armRing r else s
    if bit v 5 then s.passFail r 6 else s

/-- Word 0 of a step record (R529, R534). -/
def State.stepWord0 (s : State) (w : Writer) (j : Nat) (v : Word) : State :=
  let a := stepRec j
  if !s.writesFor w (s.stf j 0 12 4) then s
  else
    let s := s.resolveStep w j v
    let s := if w = .joinery then s.setRec a 12 4 (bits v 12 4) else s
    (s.setRec a 16 6 (bits v 16 6)).setRec a 24 8 (bits v 24 8)

/-- Mask with ones where a low half of `n` bits is used. -/
def low (n : Nat) : Nat := 2 ^ n - 1

/-- Bits of the word at offset `off` that the write of a permitted requester changes as plain storage. -/
def State.wordMask (s : State) (w : Writer) (x : Area) (off : Nat) : Nat :=
  let j := decide (w = .joinery)
  match x with
  | .slot _ =>
    if off = 0 then 0x1FF03FF + (if j then 0xF000 else 0)
    else if off = 4 then 0xFF else if off < 0x50 then low 32 else 0
  | .loss _ => if off = 0 then 0x1FF else if off = 4 then low 32 else 0
  | .ring _ =>
    if off = 4 then 0x0FFF0FFF else if off = 8 ∨ off = 0x0C then low 20
    else if off = 0x14 ∨ off = 0x24 ∨ off = 0x2C ∨ off = 0x44 ∨ off = 0x4C then low 16
    else if off = 0x30 then 0xFFFF0FFF else if off = 0x34 then low 24 else if off = 0x38 then low 16
    else if off = 0x10 ∨ off = 0x18 ∨ off = 0x1C ∨ off = 0x20 ∨ off = 0x28 ∨ off = 0x40 ∨ off = 0x48 then low 32 else 0
  | .pool p =>
    if off < 0x70 then
      if s.poolOn p then 0
      else if off = 4 then low 24 else if off = 8 then low 16
      else if off = 0x14 ∨ off = 0x24 ∨ off = 0x34 ∨ off = 0x4C ∨ off = 0x54 ∨ off = 0x5C ∨ off = 0x60 ∨ off = 0x6C then low 16
      else if off = 0x3C ∨ off = 0x64 then 0 else low 32
    else if off = 0x70 ∨ off = 0x80 then low 24
    else if off = 0x78 + 4 ∨ off = 0x88 + 4 then low 16
    else if off = 0x90 then 3
    else if off < 0xA8 then low 32 else 0
  | .group g =>
    if off < 0x18 then
      if s.groupState g ≠ 0 then 0
      else if off = 4 ∨ off = 8 then low 24 else if off = 0x0C then 0x1F else if off = 0x14 then low 16 else low 32
    else if off < 0x30 then
      let arm := s.gf g 0 3 1 = 1
      let next := if arm then 0 else if off = 0x18 then 0xFFFF0000
        else if off = 0x1C ∨ off = 0x20 then low 24 else if off = 0x24 then 0x1F else if off = 0x2C then low 16 else low 32
      next + (if off = 0x18 ∧ s.groupState g = 0 then low 16 else 0)
    else 0
  | .msgCtl =>
    if !j || s.msgOn then 0 else if off = 4 then low 20 else if off = 8 then 0x3F7F7F else 0
  | .port _ =>
    if off = 0 ∨ off = 4 then (if j then low 32 else 0)
    else if 0x40 ≤ off ∧ off < 0x80 then
      (match w with
        | .joinery => 0
        | w => if s.writesFor w ((off - 0x40) / 4) then low 32 else 0)
    else 0
  | .window n =>
    if s.rec_ (winRec n) 0 1 = 1 then 0
    else if off = 4 then low 20 else if off = 8 ∨ off = 0x10 then low 32 else if off = 0x0C ∨ off = 0x14 then low 16 else 0
  | .step j => if (off = 4 ∨ off = 8) ∧ s.stepState j = 0 then low 32 else 0
  | .shutter i =>
    if 4 ≤ off ∧ off < 0x24 then
      if s.shutState i ≠ 0 then 0
      else if off = 4 then low 12 else if off = 0x0C ∨ off = 0x14 then low 16 else if off = 0x20 then low 9 else low 32
    else if off = 0x24 then (if j ∧ s.hf i 0 4 1 = 1 then 0 else low 13)
    else if off = 0x28 then low 32 else 0
  | .region i =>
    if s.rec_ (regionRec i) 0 1 = 1 then 0
    else if off = 8 ∨ off = 0x10 then low 32 else if off = 0x0C then low 16 else 0
  | .entry i =>
    if s.seqState i ≠ 0 then 0
    else if off = 0 then 0x0FFF3FF0 else if off = 0x0C then 0x3FFFFFFF
    else if off = 0x14 ∨ off = 0x1C then low 16 else low 32
  | .program _ =>
    if off = 4 then 0x3FFFFF else if off = 0x0C then low 16
    else if off = 0x18 then 0x7F + (if j then 0xF00 else 0) else if off = 0x1C then 0 else low 32

/-- Whether a requester's writes reach the record at all. -/
def State.writesArea (s : State) (w : Writer) (x : Area) : Bool :=
  let reach := match w with
    | .part _ => x.byTransfer
    | _ => true
  reach && (match s.areaPart x with
    | some p => s.writesFor w p
    | none => true)
    && (match x with
      | .program p => s.pgf p 0x1C 0 32 == 0
      | _ => true)

/-- A write of the bits `mask` of the aligned word at `a`, with values `v`. Words that hold a command bit act as one write of
the whole word, in which the bytes not written keep what they hold. -/
def State.writeWord (s : State) (w : Writer) (a mask v : Nat) : State :=
  match areaOf a with
  | none => s
  | some (x, off) =>
    if !s.writesArea w x then s
    else
      let old := BitVec.ofNat 32 (s.peekN a 4)
      let m : Word := BitVec.ofNat 32 mask
      let whole : Word := (old &&& ~~~m) ||| (BitVec.ofNat 32 v &&& m)
      let plain (s : State) : State :=
        let k : Word := m &&& BitVec.ofNat 32 (s.wordMask w x off)
        if k = 0 then s else s.pokeN a 4 ((old &&& ~~~k) ||| (BitVec.ofNat 32 v &&& k)).toNat
      match x, off with
      | .ring r, 0 => s.ringWord0 w r whole
      | .pool p, 0 => s.writePool0 p whole
      | .group g, 0 => s.groupWrite w g whole
      | .msgCtl, 0 => if bit m 0 then s.msgWord w (whole.setWidth 8) else s
      | .window n, 0 => s.windowWord w n whole
      | .step j, 0 => s.stepWord0 w j whole
      | .shutter i, 0 => s.shutWrite w i whole
      | .region i, 0 => s.regionWord w i whole
      | .entry i, 4 => s.writeTokens w i whole
      | _, _ => plain s

/-- The aligned words that `bs`, with absent bytes not enabled, covers from `a` on: (address, mask, value). -/
def wordsOf (a : Nat) (bs : List (Option Byte)) : List (Nat × Nat × Nat) :=
  let first := a / 4
  let n := if bs.isEmpty then 0 else (a + bs.length - 1) / 4 + 1 - first
  (upTo n).map (fun k =>
    let byte (i : Nat) : Option Byte := if 4 * (first + k) + i < a then none else (bs.getD (4 * (first + k) + i - a) none)
    (4 * (first + k),
      (upTo 4).foldl (fun m i => if (byte i).isSome then m + 255 * 256 ^ i else m) 0,
      (upTo 4).foldl (fun v i => v + ((byte i).getD 0).toNat * 256 ^ i) 0))

/-- A write of bytes to record areas, word by word in rising order. -/
def State.recWrite (s : State) (w : Writer) (a : Nat) (bs : List (Option Byte)) : State :=
  (wordsOf a bs).foldl (fun s x => if x.2.1 = 0 then s else s.writeWord w x.1 x.2.1 x.2.2) s

/-- A write of whole bytes. -/
def State.recPut (s : State) (w : Writer) (a : Nat) (bs : List Byte) : State := s.recWrite w a (bs.map some)

end Sys2Proof.Machine
end

