-- ==== Sys2Proof/Machine/Xfer.lean ====
section
/-!
DEFINITION. Machine/Xfer.lean: explicit transfers (R373 to R389) and SCAT (R454): where the ends of an XFER lie, how its rows
are read, converted and written, its requests to host memory, tracked regions, and host DMA completions (R385, R387, R475).
-/
namespace Sys2Proof.Machine

def Desc.xSrcFmt (d : Desc) : Nat := d.f 0x30 0 4
def Desc.xDstFmt (d : Desc) : Nat := d.f 0x30 4 4
def Desc.xSrcKind (d : Desc) : Nat := d.f 0x31 0 4
def Desc.xDstKind (d : Desc) : Nat := d.f 0x31 4 4
def Desc.xElems (d : Desc) : Nat := d.f 0x20 0 24 + 1
def Desc.xRows (d : Desc) : Nat := d.f 0x24 0 24 + 1
def Desc.xPort (d : Desc) : Nat := d.f 0x32 14 1
def Desc.xTrack (d : Desc) : Bool := d.f 0x32 13 1 == 1
def Desc.xVerify (d : Desc) : Bool := d.f 0x32 15 1 == 1
def Desc.xRegion (d : Desc) : Nat := d.f 0x34 20 12
/-- Bytes of a source row and of a destination row. -/
def Desc.xSrcRow (d : Desc) : Nat := fmtBytes d.xSrcFmt d.xElems
def Desc.xDstRow (d : Desc) : Nat := fmtBytes d.xDstFmt d.xElems

/-- The base address of an end in the present round (R258, R377): SPD ends move as ring entries, ACC ends do not move. -/
def Run.xSrc (r : Run) (k : Nat) : Nat :=
  let d := r.desc k
  let a := d.f 0x10 0 64
  if d.xSrcKind = 0 then r.ringIn k a else if d.xSrcKind = 1 then a else a + (r.stage k).round * d.f 0x38 0 32

def Run.xDst (r : Run) (k : Nat) : Nat :=
  let d := r.desc k
  let a := d.f 0x18 0 64
  if d.xDstKind = 0 then r.ringOut k a else if d.xDstKind = 1 then a else a + (r.stage k).round * d.f 0x38 0 32

/-- The partition of a context, as a writer of the record areas. -/
def partWriter (p : Nat) : Writer := .part ⟨p % 16, Nat.mod_lt _ (by decide)⟩

/-- The `n` bytes of accumulator memory from byte `a` (R374). -/
def Phys.accBytes (p : Phys) (a n : Nat) : List Byte :=
  (upTo n).map (fun i => (toBytes 4 (p.accWord ((a + i) / 4)).toNat).getD ((a + i) % 4) 0)

/-- Writes bytes of accumulator memory from byte `a`. -/
def Phys.accWrite (p : Phys) (a : Nat) (bs : List Byte) : Phys :=
  bs.zipIdx.foldl (fun p b =>
    let i := (a + b.2) / 4
    let w := setBits (p.accWord i) (8 * ((a + b.2) % 4)) 8 b.1.toNat
    { p with acc := p.acc.put i w }) p

/-- GEN of a tracked region. -/
def State.regionGen (s : State) (i : Nat) : Nat := s.rec_ (regionRec i + 16) 32 32

/-- Reads `n` bytes of a local source end of stage `k` from `a`. -/
def State.xRead (s : State) (l : Nat) (r : Run) (k a n : Nat) : MemRead :=
  match (r.desc k).xSrcKind with
  | 0 =>
    let (bad, s) := s.eccRead (s.under l) .spd [(a, n)]
    { bytes := s.spdLoad (s.under l) a n, bad := bad, st := s.spdDrew a n }
  | 1 =>
    let (bad, s) := s.accRead (s.under l) [(a, n)]
    { bytes := (s.phy (s.under l)).accBytes a n, bad := bad, st := s }
  | _ =>
    if a ≥ 0xF000000000 then { bytes := s.recRead (partWriter r.cmd.part) a n, bad := false, st := s }
    else s.readHbm (some r.cmd.part) a n

/-- Writes bytes to a destination end that is not PEER. -/
def State.xWrite (s : State) (l : Nat) (r : Run) (k a : Nat) (bs : List Byte) : State :=
  let d := r.desc k
  match d.xDstKind with
  | 0 => s.spdStore (s.under l) a bs
  | 1 =>
    let s := s.eccWrite (s.under l) .acc a bs.length
    s.setPhy (s.under l) ((s.phy (s.under l)).accWrite a bs)
  | 2 => if a ≥ 0xF000000000 then s.recPut (partWriter r.cmd.part) a bs else s.writeHbm (some r.cmd.part) a bs
  | _ => (blocks 4096 (bs.length + 1) bs).zipIdx.foldl (fun s b => s.emit (.hostWrite d.xPort (a + 4096 * b.2) b.1)) s

/-- Whether a conversion narrows or keeps the width: its scale slot then belongs to the destination (R376). -/
def Desc.xNarrows (d : Desc) : Bool := decide (elemBits d.xDstFmt ≤ elemBits d.xSrcFmt)

/-- What elements `j` onwards of row `i` become at the destination (R376): bytes, and what the store path notes. -/
def State.xConvert (s : State) (r : Run) (k i j : Nat) (bs : List Byte) : List Byte × Narrowed :=
  let d := r.desc k
  let sf := d.xSrcFmt
  let df := d.xDstFmt
  -- a copy is exact; under R92 it still reads and writes what it copies
  if sf = df then
    (bs, { ovf := sf == 2 && (valsOf sf [] (elemsOf sf (bs.length / 2) bs)).any (zf16Special sf) })
  else
    let n := bs.length * 8 / elemBits sf
    let ls := s.lossExp r.cmd.part
    let e := r.slotExp k
    let load : Int := (if d.lsApply then ls else 0) - (if d.xNarrows then 0 else e)
    let store : Int := if d.lsRemove then -ls else 0
    let vs := (valsOf sf [] (elemsOf sf n bs)).map (fun v => v.scale (load + store))
    let idx := ((r.stage k).round * d.xRows + i) * d.xElems + j
    let x := narrowRun { fmt := df, rnd := d.rnd, sat := d.sat, seed := d.seed, k := if d.xNarrows then e else 0 } idx vs
    -- reading a ZF16 infinity or NaN counts for R92 as well
    let x := { x with ovf := x.ovf || (d.lsUses && (valsOf sf [] (elemsOf sf n bs)).any (zf16Special sf)) }
    (runBytes df 0 x.els, x)

/-- The command notes what a converted run raised (R87, R92, R95). -/
def State.xNote (s : State) (l : Nat) (r : Run) (k : Nat) (x : Narrowed) : State :=
  let d := r.desc k
  let s := s.stepOvf r.cmd.part d.lsUses x.ovf
  match s.runOf l r.cmd.id with
  | some r => s.setRun l ((r.flag 2 x.fl).folded k x)
  | none => s

/-- The first failing status of an XFER, with its entry in the fault record (R387). -/
def State.xFail (s : State) (l id code a : Nat) : State :=
  match s.runOf l id with
  | some r => (s.setRun l { r with status := if r.status = 0 then code else r.status }).fault 0x12 2 code l a
  | none => s

/-- A request of stage `k` is outstanding. -/
def Run.asks (r : Run) (k : Nat) : Run :=
  { r.setStage k { r.stage k with out := (r.stage k).out + 1 } with outstanding := r.outstanding + 1 }

/-- One destination row goes to a peer as one WRITE on VC0 (R374, R454). -/
def State.xPeer (s : State) (l id k : Nat) (d : Desc) (a : Nat) (rs : List (Nat × Nat)) (bs : List Byte) : State :=
  let (ok, s) := s.sendFrom { dest := d.f 0x34 0 20, kind := 0, vc := 0, addr := a, owner := .cmd l id k } rs bs
  match s.runOf l id with
  | some r =>
    s.setRun l (if ok then r.asks k else { r with status := if r.status = 0 then 0x94 else r.status })
  | none => s

/-- Bytes of a row of a local source before the first block, or word, that reads bad (R387). -/
def State.xGood (s : State) (l : Nat) (d : Desc) (a n : Nat) : Nat :=
  let ups (t : Tab Nat) : List Nat := (t.filter (fun u => decide (u.2 ≥ 2) && overlap (8 * u.1, 8) (a, n))).map (fun u => 8 * u.1 - a)
  let bad := match d.xSrcKind with
    | 0 => ups (s.phy (s.under l)).spdUps
    | 1 => ups (s.phy (s.under l)).accUps
    | _ => (s.badIn a n).map (·.1)
  match bad with
  | [] => 0
  | x :: xs => xs.foldl min x / 16 * 16

/-- Row `i` of a transfer with a local source: nothing is moved once it has failed; a row with a bad block stops at that block. -/
def State.xRow (s : State) (l id k i : Nat) : State :=
  match s.runOf l id with
  | none => s
  | some r =>
    if r.status ≠ 0 then s
    else
      let d := r.desc k
      let a := r.xSrc k + i * d.f 0x28 0 32
      let b := r.xDst k + i * d.f 0x2C 0 32
      let m := s.xRead l r k a d.xSrcRow
      let s := m.st
      if m.bad then
        let n := s.xGood l d a d.xSrcRow
        let (bs, x) := s.xConvert r k i 0 (m.bytes.take n)
        let s := s.xNote l r k x
        (if d.xDstKind = 4 then s else s.xWrite l r k b bs).xFail l id 0x26 (a + n)
      else
        let (bs, x) := s.xConvert r k i 0 m.bytes
        let s := s.xNote l r k x
        -- a change of the region up to the last read counts (R382)
        let changed := d.xTrack && i + 1 == d.xRows && some (s.regionGen d.xRegion) != r.g0.find? k
        if d.xDstKind = 4 then s.xPeer l id k d b [((if d.xSrcKind = 0 then spdSpace l else 0) + a, d.xSrcRow)] bs
        else
          let s := s.xWrite l r k b bs
          if changed then
            match s.runOf l id with
            | some r => s.setRun l { r with changed := true }
            | none => s
          else s

/-- Issues the reads of a transfer whose source is host memory: pieces of up to 4 KiB in ascending order (R385). -/
def State.xHostReads (s : State) (l id k : Nat) : State :=
  match s.runOf l id with
  | none => s
  | some r =>
    let d := r.desc k
    let n := d.xSrcRow
    (upTo d.xRows).foldl (fun s i => (upTo (ceilDiv n 4096)).foldl (fun s j =>
      match s.runOf l id with
      | none => s
      | some r =>
        let tag := s.host.nextRead
        let len := min 4096 (n - 4096 * j)
        let a := r.xSrc k + i * d.f 0x28 0 32 + 4096 * j
        let s := s.setHost { s.host with
          reads := s.host.reads.put tag { port := d.xPort, addr := a, len := len, use := .xfer l id k (i * n + 4096 * j) }
          nextRead := tag + 1 }
        (s.setRun l (r.asks k)).emit (.hostRead d.xPort tag a len)) s) s

/-- Whether bytes of accumulator memory lie in a slot that is FILLING or DRAINING (R139). -/
def Phys.accHeld (p : Phys) (a n : Nat) : Bool :=
  (upTo 8).any (fun t => ((p.slot t).st == .filling || (p.slot t).st == .draining) && overlap (2 ^ 18 * t, 2 ^ 18) (a, n))

/-- An ACC end touches no row of such a slot when a transfer starts (R139, R374). -/
def State.accBusy (s : State) (l : Nat) (r : Run) (k : Nat) : Bool :=
  let d := r.desc k
  let hit (a stride n : Nat) : Bool := (upTo d.xRows).any (fun i => (s.phy (s.under l)).accHeld (a + i * stride) n)
  (d.xSrcKind == 1 && hit (r.xSrc k) (d.f 0x28 0 32) d.xSrcRow) || (d.xDstKind == 1 && hit (r.xDst k) (d.f 0x2C 0 32) d.xDstRow)

/-- Where a piece of an XFER that begins at byte `pos` of its source stream goes: row, element, destination address. -/
def Run.xPlace (r : Run) (k pos : Nat) : Nat × Nat × Nat :=
  let d := r.desc k
  let i := pos / d.xSrcRow
  let j := pos % d.xSrcRow * 8 / (if d.xSrcFmt = 7 then 8 else elemBits d.xSrcFmt)
  (i, j, r.xDst k + i * d.f 0x2C 0 32 + fmtBytes d.xDstFmt j)

/-- The data of one piece of an XFER from a host arrives: element-aligned, converted and written (R376), unless the slot of an ACC
end keeps it waiting (R139). -/
def State.xArrive (s : State) (l id k pos : Nat) (bs : List Byte) : State :=
  match s.runOf l id with
  | none => s
  | some r =>
    if r.status ≠ 0 then s.cmdDone l id k 0
    else
      let (i, j, a) := r.xPlace k pos
      let (out, x) := s.xConvert r k i j bs
      if Desc.xDstKind (r.desc k) = 1 ∧ (s.phy (s.under l)).accHeld a out.length then
        s.setRun l (r.setStage k { r.stage k with waiting := (r.stage k).waiting ++ [(pos, bs)] })
      else ((s.xNote l r k x).xWrite l r k a out).cmdDone l id k 0

/-- Pieces that have waited for a slot are written where it no longer keeps them. -/
def State.xWaiting (s : State) (l id k : Nat) : State :=
  match s.runOf l id with
  | none => s
  | some r =>
    (r.stage k).waiting.foldl (fun s x => s.xArrive l id k x.1 x.2) (s.setRun l (r.setStage k { r.stage k with waiting := [] }))

/-- GEN is sampled at the first read of a transfer with TRACK (R382): none when EXPECT differs from it. -/
def State.sample (s : State) (l id k : Nat) : Option State :=
  match s.runOf l id with
  | none => some s
  | some r =>
    let d := r.desc k
    if !d.xTrack || d.xVerify || (r.g0.find? k).isSome then some s
    else
      let g := s.regionGen d.xRegion
      if d.f 0x3C 0 32 ≠ 0xFFFFFFFF ∧ d.f 0x3C 0 32 ≠ g then none
      else
        let c := s.core l
        some ((s.setCore l { c with samples := c.samples.put id g }).setRun l { r with g0 := r.g0.put k g })

/-- Ends the round of transfer stage `k` once nothing of it is outstanding. -/
def State.xEnd (s : State) (l id k : Nat) : State :=
  match s.runOf l id with
  | none => s
  | some r =>
    let r := { r with issuedAll := true }
    if r.status ≠ 0 ∧ r.outstanding = 0 then (s.setRun l r).finish l id r.status
    else if (r.stage k).out = 0 then s.setRun l (r.endRound k) else s.setRun l r

/-- Runs one round of transfer stage `k`, or goes on with data that waited. -/
def State.runXfer (s : State) (l id k : Nat) : State :=
  match s.runOf l id with
  | none => s
  | some r =>
    let d := r.desc k
    if !(r.stage k).waiting.isEmpty then s.xWaiting l id k
    else if !s.stageMay l r k || (r.stage k).started || s.accBusy l r k then s
    else
      let s := s.setRun l (r.setStage k { r.stage k with started := true })
      match s.sample l id k with
      | none => s.finish l id 0x24
      | some s =>
        let s := if d.xSrcKind = 3 then s.xHostReads l id k else (upTo d.xRows).foldl (fun s i => s.xRow l id k i) s
        s.xEnd l id k

/-- XFER (R376): the running XFER of tag `tag` moves its rows; one with a HOST source ends with its last completion. -/
def execXfer (c : Fin 128) (tag : Fin 4096) (s : State) : Host.Outcome State Fault Refusal :=
  match (s.core c.val).run tag.val with
  | some r =>
    if Desc.cls r.cmd.desc = 6 ∧ !(Desc.xVerify r.cmd.desc) then .next (s.runXfer c.val r.cmd.id 0) else .next s
  | none => .next s

/-- The verify of stage `k` (R384): GEN against the g0 that the XFER of DEP0 sampled. -/
def State.runVerify (s : State) (l id k : Nat) : State :=
  match s.runOf l id with
  | none => s
  | some r =>
    if !s.stageMay l r k then s
    else
      let g0 := match r.cmd.deps with
        | i :: _ => (s.core l).samples.find? i
        | [] => none
      if g0 = some (s.regionGen (r.desc k).xRegion) then s.setRun l (r.endRound k) else s.finish l id 0x25

/-- XFER_VERIFY (R384). -/
def execXferVerify (c : Fin 128) (tag : Fin 4096) (s : State) : Host.Outcome State Fault Refusal :=
  match (s.core c.val).run tag.val with
  | some r =>
    if Desc.cls r.cmd.desc = 6 ∧ Desc.xVerify r.cmd.desc then .next (s.runVerify c.val r.cmd.id 0) else .next s
  | none => .next s

/-! ### SCAT (R454) -/

/-- One entry: DEST, LOCAL, REMOTE and bytes. -/
def scatEntry (e : Desc) : Nat × Nat × Nat × Nat := (e.f 0 0 20, e.f 8 0 48, e.f 0x10 0 48, e.f 0x18 0 32 + 1)

/-- Sends one entry's WRITE; a poisoned source block marks its flits (R447). -/
def State.scatSend (s : State) (l id : Nat) (res : Bool) (e : Desc) : State :=
  match s.runOf l id with
  | none => s
  | some r =>
    let (dest, a, b, n) := scatEntry e
    let bad := s.badIn a n
    let m := s.readHbm (some r.cmd.part) a n
    let (ok, s) := m.st.sendFrom
      { dest := dest, kind := 0, vc := if res then 1 else 0, res := res, addr := b, owner := .cmd l id, bad := bad } [(a, n)] m.bytes
    match s.runOf l id with
    | some r =>
      s.setRun l (if ok then { r with outstanding := r.outstanding + 1 } else { r with status := if r.status = 0 then 0x94 else r.status })
    | none => s

/-- SCAT (R454): every entry becomes one WRITE; with RES the whole is tested and charged first (R441). -/
def execScat (c : Fin 128) (tag : Fin 4096) (s : State) : Host.Outcome State Fault Refusal :=
  let l := c.val
  match (s.core l).run tag.val with
  | none => .next s
  | some r =>
    let d : Desc := r.cmd.desc
    if Desc.cls r.cmd.desc ≠ 8 ∨ r.issuedAll ∨ r.done then .next s
    else
      let res := d.f 0x18 16 1 == 1
      let ms := r.cmd.stages.map (fun e => ((scatEntry e).1, (scatEntry e).2.2.2))
      match (if res then s.reserve_ r.cmd.part ms else .inr s) with
      | .inl code => .next ((s.countRefused ms).finish l r.cmd.id code)
      | .inr s =>
        let s := r.cmd.stages.foldl (fun s e => s.scatSend l r.cmd.id res e) s
        match s.runOf l r.cmd.id with
        | none => .next s
        | some r =>
          let s := s.setRun l { r with issuedAll := true }
          .next (if r.outstanding = 0 then s.finish l r.cmd.id 0 else s)

/-! ### Host DMA completions (R385, R387, R475) -/

/-- The host copy of a returning page arrives; a read that fails loses the only copy (R301, R315). -/
def State.hostPage (s : State) (p page : Nat) (data : Option (List Byte)) : State :=
  if s.pageState p page ≠ 5 then s
  else match data with
    | none => s.losePages p [page]
    | some bs =>
      let s := s.writeHbm (some p) (s.frameAddr p (s.rec_ (s.pd p page + 8) 0 32)) bs
      let x := s.pool p
      s.setPool p { x with landed := x.landed ++ [page] }

/-- A host read ends: with its data, or with none (Unsupported Request, Completer Abort, poison, timeout). -/
def State.hostReadEnds (s : State) (tag : Nat) (data : Option (List Byte)) : State :=
  match s.host.reads.find? tag with
  | none => s
  | some x =>
    let s := s.setHost { s.host with reads := s.host.reads.drop tag }
    match x.use, data with
    | .ring q first _, some bs => s.ringArrive q first bs
    | .ring q first n, none => s.ringFail q first n
    | .xfer l id k pos, some bs => s.xArrive l id k pos bs
    | .xfer l id k _, none => (s.xFail l id 0x27 x.addr).cmdDone l id k 0x27
    | .pageReturn p page, d => s.hostPage p page d
    -- a piece of a recovery fetch is taken in Machine/Start.lean
    | .recovery _, _ => s

end Sys2Proof.Machine
end

