-- ==== Sys2Proof/Machine/Issue.lean ====
section
/-!
DEFINITION. Machine/Issue.lean: a queued command is taken by its engines (R217, R236), and the stages of a CHAIN run
(R255 to R262).
-/
namespace Sys2Proof.Machine

/-- The scale slot that a stage names, and whether it stores with it: (slot, stores). -/
def stageSlot (d : Desc) : Option (Nat × Bool) :=
  match d.cls with
  | 4 => if d.f 0x24 15 1 = 1 then some (d.f 0x24 0 12, true) else none
  | 5 => if d.f 0x32 15 1 = 1 then some (d.f 0x32 0 12, true) else none
  | 6 => if d.f 0x32 12 1 = 1 then some (d.f 0x32 0 12, d.xNarrows) else none
  | _ => none

/-- The scale slots of a command's stages, with SCALE_EXP as it stands when the command starts (R86). -/
def State.readSlots (s : State) (c : Cmd) : Tab Fold :=
  c.descs.zipIdx.foldl (fun t x =>
    match stageSlot x.1 with
    | none => t
    | some (i, st) =>
      let a := slotRec i
      let f : Fold := { slot := i, fmt := s.rec_ a 0 4, exp := s.rec_ a 32 8, mag := 0, sats := 0, store := st }
      t.put x.2 f) []

/-- Whether a RED or GATH on an armed record is held until the commit (R339). -/
def State.armHolds (s : State) (c : Cmd) : Bool :=
  let d : Desc := c.desc
  let g := if d.cls = 5 ∧ d.f 0x28 50 1 = 1 then some (d.f 0x34 0 6) else if d.cls = 7 then some (d.f 0x28 0 6) else none
  match g with
  | none => false
  | some g => match s.groups.drainAt.find? g with
    | some n => decide (c.id ≥ n)
    | none => false

/-- Whether a command that reads provisional ranges has no free entry for what it will write (R516). -/
def State.provFull (s : State) (l : Nat) (c : Cmd) : Bool :=
  let rw := c.ranges l
  !(s.provReads rw.1).isEmpty && decide (s.sill.prov.length + rw.2.length > 4096)

/-- Whether a command is eligible for duplication (R523). -/
def Cmd.sampleable (c : Cmd) : Bool :=
  let k := Desc.cls c.desc
  k == 4 || k == 2 || (k == 3 && c.stages.any (fun d => Desc.cls d == 4))

/-- Counts an eligible command, and samples it when its turn has come and the spare is idle (R523). -/
def State.sampleDup (s : State) (l : Nat) (c : Cmd) : State :=
  let k := s.fld Reg.silCtl 0 4
  if k = 0 ∨ !c.sampleable then s
  else
    let n := s.sill.eligible.get 0 l + 1
    let due := (s.sill.due.find? l).isSome || n % 2 ^ k == 0
    let p := s.under l / 17
    let idle := (s.spareOf p).isSome && (s.spare p).work == .idle && (s.spare p).queue.isEmpty
    let s := s.setSill { s.sill with
      eligible := s.sill.eligible.put l n
      due := if due && !idle then s.sill.due.put l () else s.sill.due.drop l }
    if due && idle then
      let s := s.setSpare p { s.spare p with work := .dup l c.id }
      match s.runOf l c.id with
      | some r => s.setRun l { r with sampled := true }
      | none => s
    else s

/-- The engines take a command (R217, R236): the slots are read, the accumulator checks of R142 made, and a TRACK transfer
takes its first read (R382). -/
def State.startCmd (s : State) (l : Nat) (c : Cmd) : State :=
  let folds := s.readSlots c
  let s := s.take l c
  let s := match s.runOf l c.id with
    | some r => s.setRun l { r with folds := folds }
    | none => s
  let bad := (c.descs.filter (fun d => Desc.cls d == 1)).findSome? (fun d => s.mmaCheck l c d)
  match bad with
  | some code => s.finish l c.id code
  | none =>
    let s := if Desc.cls c.desc = 6 then
        (match s.sample l c.id 0 with
          | none => s.finish l c.id 0x24
          | some s => s)
      else s
    s.sampleDup l c

/-- COMMAND_START (R236): the queued command of tag `tag` of logical core `c` starts, or completes as DEP_FAILED, once
nothing keeps it. -/
def execCommandStart (c : Fin 128) (tag : Fin 4096) (s : State) : Host.Outcome State Fault Refusal :=
  let l := c.val
  match (s.core l).queued tag.val with
  | none => .next s
  | some x =>
    match s.readiness l x with
    | .wait => .next s
    | .fail => .next (s.failDep l x)
    | .go => if s.armHolds x || s.provFull l x then .next s else .next (s.startCmd l x)

/-! ### CHAIN (R258 to R262) -/

/-- Whether a higher stage of the same class can proceed, which goes first (R259); a round under way is not broken into. -/
def State.yields (s : State) (l : Nat) (r : Run) (k : Nat) : Bool :=
  !(r.stage k).started
    && (upTo r.stages.length).any (fun j => decide (j > k) && Desc.cls (r.desc j) == Desc.cls (r.desc k) && s.stageMay l r j)

/-- Runs stage `k` of a CHAIN as far as it can go now. -/
def State.runStage (s : State) (l id k : Nat) : State :=
  match s.runOf l id with
  | none => s
  | some r =>
    let d := r.desc k
    match d.cls with
    | 1 =>
      if s.present l && !s.arrayBusy l && !s.higherMma l r k then s.runMma l id k (mmaSteps d) else s
    | 4 => if s.yields l r k then s else s.runVop l id k
    | 6 => if s.yields l r k then s else if d.xVerify then s.runVerify l id k else s.runXfer l id k
    | _ => s

/-- CHAIN (R258): stage `stage` of the running CHAIN of tag `tag` goes on as far as its input, its output and its engine
permit; a stage that stops stops the CHAIN (R261). -/
def execChain (c : Fin 128) (tag : Fin 4096) (stage : Fin 6) (s : State) : Host.Outcome State Fault Refusal :=
  match (s.core c.val).run tag.val with
  | some r => if r.isChain then .next (s.runStage c.val r.cmd.id stage.val) else .next s
  | none => .next s

end Sys2Proof.Machine
end

