-- ==== Sys2Proof/Machine/Hbm.lean ====
section
/-!
DEFINITION. Machine/Hbm.lean: the pseudo-channel controllers: the check code (R347 to R350), the scrub (R351), line states and
repair (R352, R353), token buckets (R359), and the service of requests (R363).
-/
namespace Sys2Proof.Machine

def State.setMc (s : State) (m : MemSt) : State := { s with mc := m }

/-- The line that carries a symbol (R347): 0 to 63 data, 64 metadata, 65 to 67 check symbols. -/
def lineOf (sym : Nat) : Nat := if sym < 64 then sym % 32 else if sym < 66 then 32 else 33

/-- A line of pseudo-channel `pc` fails (R352): the state advances, with its event, fault entry and replacement request. -/
def State.failLine (s : State) (pc line : Nat) : State :=
  let r := Reg.memPc pc
  let st := s.pcState pc
  if st = 3 then s
  else
    let s := s.setFld r 0 2 (st + 1)
    let s := if st = 0 then s.setFld r 2 6 line else if st = 1 then s.setFld r 8 6 line else s
    let s := ((s.raise 1 (2 + st)).fault 0x05 3 (st + 1) pc line).replace 2
    if st = 0 then s.setMc { s.mc with training := pc :: s.mc.training } else if st = 2 then s.replace 5 else s

/-- MEM_ECC_ADDR and MEM_ECC_INFO of an error (R365). -/
def State.eccLast (s : State) (block pc sym : Nat) (unc scrub : Bool) : State :=
  let a := 64 * block
  ((s.setReg Reg.memEccLo (BitVec.ofNat 32 a)).setReg Reg.memEccHi (BitVec.ofNat 32 (a / 2 ^ 32))).setReg Reg.memEccInfo
    (BitVec.ofNat 32 (pc + sym * 2 ^ 10 + b2n unc * 2 ^ 17 + b2n scrub * 2 ^ 18))

/-- Data bytes at the symbols `errs` have values that the code does not give. -/
def State.spoil (s : State) (block : Nat) (errs : List Nat) : State :=
  (errs.filter (fun k => decide (k < 64))).foldl (fun s k => (s.drew).poke (64 * block + k) [s.draw 8]) s

/-- What decoding a block that the array returned with wrong symbols `errs` does (R348, R349): whether it is uncorrectable, and
the state with it rewritten and recorded. Three or more symbols may be detected, missed or corrected wrongly. -/
def State.decodeBlock (s : State) (block : Nat) (errs : List Nat) (scrub : Bool) : Bool × State :=
  let pc := (hbmMap (64 * block)).pc
  let st := s.pcState pc
  let erased := s.fld (Reg.memPc pc) 8 6
  let es := (errs.eraseDups).filter (fun k => st != 2 || lineOf k != erased)
  let detected (s : State) : State :=
    let s := ((s.spoil block es).eccLast block pc 0x7F true scrub).bumpFld Reg.memEccCnt 16 16 1
    ((s.setPoison block).raise 1 1).fault 0x04 2 1 pc (64 * block)
  match es with
  | [] => (false, s)
  | k :: rest =>
    if st = 3 then (false, s)
    else if rest.isEmpty && st != 2 then
      let s := ((s.eccLast block pc k false scrub).bumpFld Reg.memEccCnt 0 16 1).bumpFld (Reg.memPc pc + 4) 0 16 1
      let s := s.raise 1 0
      let key := 64 * pc + lineOf k
      let n := s.mc.lineErr.get 0 key + 1
      -- the spare, or the erasure, that takes a failed line's place starts with no errors
      let s := s.setMc { s.mc with lineErr := s.mc.lineErr.put key (n % 16) }
      (false, if n = 16 then s.failLine pc (lineOf k) else s)
    else if rest.length = 1 && st != 2 || rest.isEmpty then (true, detected s)
    else
      let pick := (s.draw 2).toNat
      let s := s.drew
      if pick = 0 then (true, detected s)
      else if pick = 1 then (false, s.spoil block es)
      else (false, (s.drew).spoil block (es ++ [(s.draw 6).toNat]))

/-- Counts a block served for a partition and reads the bytes that the controller delivers: those of a foreign range are
poisoned ones (R358); an uncorrectable block is delivered as read (R349). -/
def State.serveRead (s : State) (part a n : Nat) (errs : List Nat) : MemRead :=
  if s.rangeOwner a ≠ some part then s.readPiece (some part) a n
  else
    let (unc, s) := s.decodeBlock (a / 64) errs false
    if unc then
      let s := s.served part 1
      { bytes := s.peek a n, bad := true, st := s }
    else s.readPiece (some part) a n

/-! ### Token buckets (R359) -/

def bucketKey (pc part : Nat) : Nat := 16 * pc + part

def State.hasTokens (s : State) (pc part : Nat) : Nat :=
  (s.bucketNow part (s.mc.buckets.get { tokens := 0, at_ := 0 } (bucketKey pc part))).tokens

def State.setTokens (s : State) (pc part n : Nat) : State :=
  s.setMc { s.mc with buckets := s.mc.buckets.put (bucketKey pc part) { tokens := n, at_ := s.cycles } }

/-- A request has the tokens it needs. -/
def State.funded (s : State) (pc : Nat) (r : HbmReq) : Bool := !s.regulated r.part || decide (s.hasTokens pc r.part ≥ 4096)

/-- Requests that the controller of `pc` holds; those beyond 64 wait in the fabric. -/
def State.held (s : State) (pc : Nat) : List HbmReq := (s.mc.reqs.get [] pc).take 64

/-- Whether a request may be served: funded, or WORK_CONS when no request here is (R359). -/
def State.eligible (s : State) (pc : Nat) (r : HbmReq) : Bool :=
  s.funded pc r || (s.fld (rglBase r.part) 12 1 == 1 && (s.held pc).all (fun x => !s.funded pc x))

/-- Serving takes its tokens. -/
def State.pay (s : State) (pc : Nat) (r : HbmReq) : State :=
  if !s.regulated r.part then s
  else s.setTokens pc r.part (if s.funded pc r then s.hasTokens pc r.part - 4096 else 0)

/-! ### Service (R363) -/

/-- MEM_SCHED.AGE_LIMIT: below 64 it acts as 64. -/
def State.ageLimit (s : State) : Nat := max 64 (s.fld Reg.memSched 0 16)

/-- The request that bank `bank` serves next, as its index in the controller: aged ones first, then row hits, then the
oldest; never past an earlier request to the same block. -/
def State.nextReq (s : State) (pc bank : Nat) : Option Nat :=
  let rs := s.held pc
  let ok (i : Nat) (r : HbmReq) : Bool :=
    (hbmMap r.addr).bank == bank && s.eligible pc r && (rs.take i).all (fun x => x.addr / 64 != r.addr / 64)
  let cs := (rs.zipIdx.filter (fun x => ok x.2 x.1))
  let aged := cs.filter (fun x => decide (s.cycles ≥ x.1.entered + s.ageLimit))
  let hits := cs.filter (fun x => s.mc.openRow.find? (32 * pc + bank) == some (hbmMap x.1.addr).row)
  match aged, hits, cs with
  | x :: _, _, _ => some x.2
  | [], x :: _, _ => some x.2
  | [], [], x :: _ => some x.2
  | [], [], [] => none

/-- An operation of R214 on width `w` bytes: the new value. -/
def amoNew (op : AmoOp) (w old b cmp : Nat) : Nat :=
  let n := 8 * w
  match op with
  | .swap => b
  | .add => (old + b) % 2 ^ n
  | .and => old &&& b
  | .or => old ||| b
  | .xor => old ^^^ b
  | .maxu => max old b
  | .minu => min old b
  | .max => if signed n old < signed n b then b else old
  | .min => if signed n old ≤ signed n b then old else b
  | .cas => if old = cmp then b else old

/-- The controller's answer is there for the thread that waits. -/
def State.answer (s : State) (l t : Nat) (v : Nat × Bool) : State :=
  let x := s.thread l t
  match x.wait with
  | .data op a _ => s.setThread l t { x with wait := .data op a (some v) }
  | _ => s

/-- Key of a line in the panel caches. -/
def pkey (panel line : Nat) : Nat := panel * 2 ^ 40 + line

/-- Reads a line of a panel cache under its check bits (R208): a wrong bit is corrected; two in a word of a clean line send the
line away, to be fetched again, and in a dirty line they poison it. -/
def State.panelRead (s : State) (key : Nat) : Option PLine × State :=
  match s.pcache.find? key with
  | none => (none, s)
  | some y =>
    if y.ups = 0 then (some y, s)
    else if y.ups ≥ 2 ∧ y.dirty.isEmpty then (none, { s with pcache := s.pcache.drop key })
    else
      let y := { y with ups := 0, poison := y.poison || decide (y.ups ≥ 2) }
      (some y, { s with pcache := s.pcache.put key y })

/-- Writes a dirty line back to HBM (R203); a poisoned line stays poisoned. -/
def State.writeBack (s : State) (key : Nat) : State :=
  match s.panelRead key with
  | (none, s) => s
  | (some x, s) =>
    if x.dirty.isEmpty then s
    else
      let line := key % 2 ^ 40
      let s := s.writeHbm (s.rangeOwner (64 * line)) (64 * line) (toBytes 64 x.data.toNat)
      let s := if x.poison then s.setPoison line else s
      { s with pcache := s.pcache.put key { x with dirty := [] } }

/-- A line enters a panel cache of 8,192 sets and 16 ways (R203); of a full set, the line that leaves is open. -/
def State.fillPanel (s : State) (key : Nat) (x : PLine) : State :=
  let set := s.pcache.filter (fun y => y.1 / 2 ^ 40 == key / 2 ^ 40 && y.1 % 8192 == key % 8192)
  let s := if set.length < 16 ∨ (s.pcache.find? key).isSome then s
    else
      let v := s.pick (set.map (·.1))
      let s := s.drew.writeBack v
      { s with pcache := s.pcache.drop v }
  { s with pcache := s.pcache.put key x }

/-- Panel of logical core `l`. -/
def State.panelOf (s : State) (l : Nat) : Nat := s.under l / 17

/-- Reads a line from HBM into the panel cache of core `l` for a partition. -/
def State.fillFrom (s : State) (l part line : Nat) (errs : List Nat) : State :=
  let key := pkey (s.panelOf l) line
  match s.panelRead key with
  | (some _, s) => s
  | (none, s) =>
    let m := s.serveRead part (64 * line) 64 errs
    m.st.fillPanel key { data := BitVec.ofNat 512 (ofBytes m.bytes), poison := m.bad }

/-- Serves one request. A compare-and-swap whose comparison fails writes nothing (R214). -/
def State.serve (s : State) (r : HbmReq) (errs : List Nat) : State :=
  match r.op with
  | .loadCached _ _ _ => s.fillFrom r.core r.part (r.addr / 64) errs
  | .descr _ _ _ => s.fillFrom r.core r.part (r.addr / 64) errs
  | .fetch => s.fillFrom r.core r.part (r.addr / 64) errs
  | .loadUncached w _ =>
    let m := s.serveRead r.part r.addr w errs
    m.st.answer r.core r.thread (ofBytes m.bytes, m.bad)
  | .storeUncached w v =>
    let (_, s) := if s.rangeOwner r.addr = some r.part then s.decodeBlock (r.addr / 64) errs false else (false, s)
    (s.writePiece (some r.part) r.addr (toBytes w v)).answer r.core r.thread (0, false)
  | .amo op w _ b c =>
    let m := s.serveRead r.part r.addr w errs
    let old := ofBytes m.bytes
    let s := if m.bad ∨ (op = .cas ∧ old ≠ c) then m.st else m.st.writePiece none r.addr (toBytes w (amoNew op w old b c))
    s.answer r.core r.thread (old, m.bad)

/-- A request is completed with poisoned data, after the fifth mismatch of a block that crosses the fabric to panel `panel`
(R511), with its entry in the fault record. A request that did not reach its controller acts on nothing but the block that a
store would write: that becomes the poisoned data. -/
def State.fabricPoison (s : State) (r : HbmReq) (panel : Nat) (arrived : Bool) : State :=
  let s := s.fault 0x07 2 0 panel r.addr
  let lost (w : Nat) (s : State) : State := (s.drew).answer r.core r.thread ((s.draw (8 * w)).toNat, true)
  let fill (s : State) : State :=
    let key := pkey (s.panelOf r.core) (r.addr / 64)
    if (s.pcache.find? key).isSome then s
    else (s.drew).fillPanel key { data := s.draw 512, poison := true }
  match r.op with
  | .loadCached _ _ _ => fill s
  | .descr _ _ _ => fill s
  | .fetch => fill s
  | .loadUncached w _ => lost w s
  | .amo _ w _ _ _ => lost w s
  | .storeUncached w _ =>
    if arrived then s
    else if s.rangeOwner r.addr ≠ some r.part then (s.writePiece (some r.part) r.addr (toBytes w 0)).answer r.core r.thread (0, false)
    else (((s.drew).writePiece (some r.part) r.addr (toBytes w (s.draw (8 * w)).toNat)).setPoison (r.addr / 64)).answer
      r.core r.thread (0, false)

/-- The panel onto which the stack of a pseudo-channel is bonded (R12). -/
def stackPanel (pc : Nat) : Nat := pc % 32 / 4

/-- A request crosses the fabric, is served, and its response crosses: `req` and `rsp` count the mismatches of each in a row;
up to four are sent again (R511). -/
def State.serveOver (s : State) (pc : Nat) (r : HbmReq) (errs : List Nat) (req rsp : Fin 6) : State :=
  if req.val = 5 then s.fabricPoison r (stackPanel pc) false
  else
    let u := s.serve r errs
    if rsp.val < 5 then u
    else match r.op with
      | .loadCached _ _ _ => (s.serveRead r.part (64 * (r.addr / 64)) 64 errs).st.fabricPoison r (s.panelOf r.core) true
      | .descr _ _ _ => (s.serveRead r.part (64 * (r.addr / 64)) 64 errs).st.fabricPoison r (s.panelOf r.core) true
      | .fetch => (s.serveRead r.part (64 * (r.addr / 64)) 64 errs).st.fabricPoison r (s.panelOf r.core) true
      | _ => u.fabricPoison r (s.panelOf r.core) true

/-- The requests of a controller once the one at index `i` has gone: the first of those that waited in the fabric enters in cycle
`now` (R363). -/
def leaveController (rs : List HbmReq) (i now : Nat) : List HbmReq :=
  let left := rs.eraseIdx i
  match left[63]? with
  | some r => left.set 63 { r with entered := now }
  | none => left

/-- HBM_REQUEST_SERVE (R363, R511): while the spare line is being trained, requests are held (R353). -/
def execHbmRequestServe (pc : Fin 1024) (bank : Fin 32) (errs : ServeErrs) (s : State) :
    Host.Outcome State Fault Refusal :=
  let c := pc.val
  match (if s.mc.training.contains c then none else s.nextReq c bank.val) with
  | none => .next s
  | some i =>
    let rs := s.mc.reqs.get [] c
    match rs[i]? with
    | none => .next s
    | some r =>
      let s := s.pay c r
      let s := s.setMc { s.mc with reqs := s.mc.reqs.put c (leaveController rs i s.cycles), openRow := s.mc.openRow.put (32 * c + bank.val) (hbmMap r.addr).row }
      .next (s.serveOver c r (errs.symbols.map (·.val)) errs.req errs.rsp)

/-- Granules of HBM. -/
def granules : Nat := hbmEnd / 256

/-- SCRUB_READ (R351). -/
def execScrubRead (errs : List (Fin 68)) (s : State) : Host.Outcome State Fault Refusal :=
  if s.fld Reg.memScrub 0 1 = 0 then .next s
  else
    let pos := (s.reg Reg.memScrubPos).toNat
    let (_, s) := s.decodeBlock (4 * pos + s.mc.scrubBlk) (errs.map (·.val)) true
    if s.mc.scrubBlk < 3 then .next (s.setMc { s.mc with scrubBlk := s.mc.scrubBlk + 1 })
    else
      let s := s.setMc { s.mc with scrubBlk := 0 }
      if pos + 1 < granules then .next (s.setReg Reg.memScrubPos (BitVec.ofNat 32 (pos + 1)))
      else .next (((s.setReg Reg.memScrubPos 0).setMc { s.mc with lineErr := [] }).raise 1 5)

/-- LINE_SPARE_TRAINED (R353): requests are served again. -/
def execLineSpareTrained (pc : Fin 1024) (s : State) : Host.Outcome State Fault Refusal :=
  .next (s.setMc { s.mc with training := s.mc.training.filter (· != pc.val) })

end Sys2Proof.Machine
end

