-- ==== Sys2Proof/Machine/Krarn.lean ====
section
/-!
DEFINITION. Machine/Krarn.lean: the Krarn scalar instructions (R209 to R222), their exceptions (R223), the caches (R203 to R208)
and the thread controls (R224 to R226). An instruction command is the issue of an instruction that has been fetched: it names
the core and the thread, and has its effect when that thread may issue (notes/assumptions/61.md).
-/
namespace Sys2Proof.Machine

/-! ### Issue (R199 to R202, R209, R223) -/

/-- Predicate `i`; p0 reads 1. -/
def Thread.p (x : Thread) (i : Nat) : Bool := i == 0 || x.preds.getLsbD i

/-- Writes predicate `i`; a write to p0 is ignored. -/
def Thread.setP (x : Thread) (i : Nat) (v : Bool) : Thread :=
  if i = 0 then x else { x with preds := setBits x.preds i 1 (b2n v) }

/-- The guard of an instruction (R209). -/
def Thread.guard (x : Thread) (g : Guard) : Bool := x.p g.pg.val != g.pn

/-- Past the instruction. -/
def Thread.next (x : Thread) : Thread := { x with pc := x.pc + 4 }

/-- The last byte of the scale area that scalar accesses reach (R207). -/
def scaleEnd : Nat := 0xF000080200

/-- The partition of the scale slot or loss-scale record at an address of the scale area. -/
def State.scalePart (s : State) (a : Nat) : Nat :=
  if a < 0xF000080000 then s.rec_ (a / 128 * 128) 12 4 else (a - 0xF000080000) / 32

/-- The checks of R207 on an access of `w` bytes at `a`: the cause of the exception, if it raises one. -/
def State.accessFault (s : State) (part a w : Nat) (plain : Bool) : Option Nat :=
  let align := if a % w = 0 then none else some 2
  if a < hbmEnd then (if s.rangeOwner a = some part then align else some 4)
  else if 0xF000000000 ≤ a ∧ a < scaleEnd then
    (if !plain ∨ w < 4 then some 3 else if s.scalePart a = part then align else some 4)
  else some 3

/-- The instruction at the program counter issues: it counts, and its thread is the one that issued last (R201). -/
def State.issue (s : State) (l t : Nat) : State :=
  let x := s.thread l t
  let s := s.setThread l t { x with issued := x.issued + 1, issuedRc := BitVec.ofNat 32 (satAdd 32 x.issuedRc.toNat 1) }
  s.setCore l { s.core l with lastThread := Fin.ofNat 8 t }

/-- What thread `t` of core `l` does with an instruction whose guard is `g`: nothing while it may not issue; an exception when
its program counter may not be fetched from; the next instruction when the guard is false; else `f` (R201, R202, R207). -/
def State.scalar (s : State) (l t : Nat) (g : Guard) (f : Thread → State → State) : State :=
  if !s.issues l t then s
  else
    let x := s.thread l t
    match s.accessFault x.part.toNat x.pc.toNat 4 false with
    | some cause => s.except l t cause 0 (some x.pc.toNat)
    | none =>
      let s := s.issue l t
      let x := s.thread l t
      if x.guard g then f x s else s.setThread l t x.next

/-- ILLEGAL with operation code `op` (R223). -/
def State.illegal (s : State) (l t op : Nat) : State := s.except l t 1 op none

/-- An instruction that writes gd and goes on. -/
def State.toG (s : State) (l t : Nat) (g : Guard) (gd : Fin 32) (f : Thread → Dword) : State :=
  s.scalar l t g (fun x s => s.setThread l t (x.next.setG gd.val (f x)))

/-- A two-operand ALU instruction (R212). -/
def State.alu (s : State) (l t : Nat) (g : Guard) (gd ga gb : Fin 32) (f : Dword → Dword → Dword) : State :=
  s.toG l t g gd (fun x => f (x.g ga.val) (x.g gb.val))

/-- A shift amount (R212). -/
def amount (b : Dword) : Nat := b.toNat % 64

def execAdd (c : Fin 128) (t : Fin 8) (g : Guard) (gd ga gb : Fin 32) (s : State) : Host.Outcome State Fault Refusal :=
  .next (s.alu c.val t.val g gd ga gb (fun a b => a + b))
def execSub (c : Fin 128) (t : Fin 8) (g : Guard) (gd ga gb : Fin 32) (s : State) : Host.Outcome State Fault Refusal :=
  .next (s.alu c.val t.val g gd ga gb (fun a b => a - b))
def execAnd (c : Fin 128) (t : Fin 8) (g : Guard) (gd ga gb : Fin 32) (s : State) : Host.Outcome State Fault Refusal :=
  .next (s.alu c.val t.val g gd ga gb (fun a b => a &&& b))
def execOr (c : Fin 128) (t : Fin 8) (g : Guard) (gd ga gb : Fin 32) (s : State) : Host.Outcome State Fault Refusal :=
  .next (s.alu c.val t.val g gd ga gb (fun a b => a ||| b))
def execXor (c : Fin 128) (t : Fin 8) (g : Guard) (gd ga gb : Fin 32) (s : State) : Host.Outcome State Fault Refusal :=
  .next (s.alu c.val t.val g gd ga gb (fun a b => a ^^^ b))
def execShl (c : Fin 128) (t : Fin 8) (g : Guard) (gd ga gb : Fin 32) (s : State) : Host.Outcome State Fault Refusal :=
  .next (s.alu c.val t.val g gd ga gb (fun a b => a <<< amount b))
def execShr (c : Fin 128) (t : Fin 8) (g : Guard) (gd ga gb : Fin 32) (s : State) : Host.Outcome State Fault Refusal :=
  .next (s.alu c.val t.val g gd ga gb (fun a b => a >>> amount b))
def execSar (c : Fin 128) (t : Fin 8) (g : Guard) (gd ga gb : Fin 32) (s : State) : Host.Outcome State Fault Refusal :=
  .next (s.alu c.val t.val g gd ga gb (fun a b => a.sshiftRight (amount b)))
def execMul (c : Fin 128) (t : Fin 8) (g : Guard) (gd ga gb : Fin 32) (s : State) : Host.Outcome State Fault Refusal :=
  .next (s.alu c.val t.val g gd ga gb (fun a b => a * b))

/-- The high 64 bits of an unsigned and of a signed product (R212). -/
def mulHighU (a b : Dword) : Dword := BitVec.ofNat 64 (a.toNat * b.toNat / 2 ^ 64)
def mulHighS (a b : Dword) : Dword := BitVec.ofInt 64 (a.toInt * b.toInt / 2 ^ 64)

def execMulhu (c : Fin 128) (t : Fin 8) (g : Guard) (gd ga gb : Fin 32) (s : State) : Host.Outcome State Fault Refusal :=
  .next (s.alu c.val t.val g gd ga gb mulHighU)
def execMulh (c : Fin 128) (t : Fin 8) (g : Guard) (gd ga gb : Fin 32) (s : State) : Host.Outcome State Fault Refusal :=
  .next (s.alu c.val t.val g gd ga gb mulHighS)

/-- Division and remainder, rounding toward zero; a division by zero returns all ones, its remainder the dividend (R212). -/
def divU (a b : Dword) : Dword := if b = 0 then BitVec.allOnes 64 else a / b
def remU (a b : Dword) : Dword := if b = 0 then a else a % b
def divS (a b : Dword) : Dword := if b = 0 then BitVec.allOnes 64 else BitVec.ofInt 64 (a.toInt.tdiv b.toInt)
def remS (a b : Dword) : Dword := if b = 0 then a else BitVec.ofInt 64 (a.toInt.tmod b.toInt)

def execDivu (c : Fin 128) (t : Fin 8) (g : Guard) (gd ga gb : Fin 32) (s : State) : Host.Outcome State Fault Refusal :=
  .next (s.alu c.val t.val g gd ga gb divU)
def execRemu (c : Fin 128) (t : Fin 8) (g : Guard) (gd ga gb : Fin 32) (s : State) : Host.Outcome State Fault Refusal :=
  .next (s.alu c.val t.val g gd ga gb remU)
def execDiv (c : Fin 128) (t : Fin 8) (g : Guard) (gd ga gb : Fin 32) (s : State) : Host.Outcome State Fault Refusal :=
  .next (s.alu c.val t.val g gd ga gb divS)
def execRem (c : Fin 128) (t : Fin 8) (g : Guard) (gd ga gb : Fin 32) (s : State) : Host.Outcome State Fault Refusal :=
  .next (s.alu c.val t.val g gd ga gb remS)
def execMin (c : Fin 128) (t : Fin 8) (g : Guard) (gd ga gb : Fin 32) (s : State) : Host.Outcome State Fault Refusal :=
  .next (s.alu c.val t.val g gd ga gb (fun a b => if a.toInt ≤ b.toInt then a else b))
def execMax (c : Fin 128) (t : Fin 8) (g : Guard) (gd ga gb : Fin 32) (s : State) : Host.Outcome State Fault Refusal :=
  .next (s.alu c.val t.val g gd ga gb (fun a b => if a.toInt ≤ b.toInt then b else a))
def execMinu (c : Fin 128) (t : Fin 8) (g : Guard) (gd ga gb : Fin 32) (s : State) : Host.Outcome State Fault Refusal :=
  .next (s.alu c.val t.val g gd ga gb (fun a b => if a.toNat ≤ b.toNat then a else b))
def execMaxu (c : Fin 128) (t : Fin 8) (g : Guard) (gd ga gb : Fin 32) (s : State) : Host.Outcome State Fault Refusal :=
  .next (s.alu c.val t.val g gd ga gb (fun a b => if a.toNat ≤ b.toNat then b else a))

/-- Leading zeros, 64 for zero, and set bits (R212). -/
def leading (a : Dword) : Dword := if a = 0 then 64 else BitVec.ofNat 64 (63 - Nat.log2 a.toNat)
def popCount (a : Dword) : Dword := BitVec.ofNat 64 ((upTo 64).filter a.getLsbD).length

def execClz (c : Fin 128) (t : Fin 8) (g : Guard) (gd ga gb : Fin 32) (s : State) : Host.Outcome State Fault Refusal :=
  .next (s.alu c.val t.val g gd ga gb (fun a _ => leading a))
def execPopc (c : Fin 128) (t : Fin 8) (g : Guard) (gd ga gb : Fin 32) (s : State) : Host.Outcome State Fault Refusal :=
  .next (s.alu c.val t.val g gd ga gb (fun a _ => popCount a))

/-- PTOG: p7 to p0, p0 as 1 (R212). -/
def execPtog (c : Fin 128) (t : Fin 8) (g : Guard) (gd _ga _gb : Fin 32) (s : State) : Host.Outcome State Fault Refusal :=
  .next (s.toG c.val t.val g gd (fun x => (x.preds ||| 1).setWidth 64))

/-- GTOP: p7 to p1 from ga (R212). -/
def execGtop (c : Fin 128) (t : Fin 8) (g : Guard) (_gd ga _gb : Fin 32) (s : State) : Host.Outcome State Fault Refusal :=
  .next (s.scalar c.val t.val g (fun x s => s.setThread c.val t.val { x.next with preds := ((x.g ga.val).setWidth 8 &&& 0xFE) ||| (x.preds &&& 1) }))

/-! ### Immediates (R210, R211) -/

/-- IMM12, sign-extended. -/
def imm64 (imm : BitVec 12) : Dword := imm.signExtend 64

def State.aluI (s : State) (l t : Nat) (g : Guard) (gd ga : Fin 32) (imm : BitVec 12) (f : Dword → Dword → Dword) : State :=
  s.toG l t g gd (fun x => f (x.g ga.val) (imm64 imm))

def execAddi (c : Fin 128) (t : Fin 8) (g : Guard) (gd ga : Fin 32) (imm : BitVec 12) (s : State) : Host.Outcome State Fault Refusal :=
  .next (s.aluI c.val t.val g gd ga imm (fun a b => a + b))
def execAndi (c : Fin 128) (t : Fin 8) (g : Guard) (gd ga : Fin 32) (imm : BitVec 12) (s : State) : Host.Outcome State Fault Refusal :=
  .next (s.aluI c.val t.val g gd ga imm (fun a b => a &&& b))
def execOri (c : Fin 128) (t : Fin 8) (g : Guard) (gd ga : Fin 32) (imm : BitVec 12) (s : State) : Host.Outcome State Fault Refusal :=
  .next (s.aluI c.val t.val g gd ga imm (fun a b => a ||| b))
def execXori (c : Fin 128) (t : Fin 8) (g : Guard) (gd ga : Fin 32) (imm : BitVec 12) (s : State) : Host.Outcome State Fault Refusal :=
  .next (s.aluI c.val t.val g gd ga imm (fun a b => a ^^^ b))

/-- SHI: IMM[11:10] selects the shift; 3, and non-zero IMM[9:6], are ILLEGAL (R211). -/
def execShi (c : Fin 128) (t : Fin 8) (g : Guard) (gd ga : Fin 32) (imm : BitVec 12) (s : State) : Host.Outcome State Fault Refusal :=
  let kind := bits imm 10 2
  let n := bits imm 0 6
  if kind = 3 ∨ bits imm 6 4 ≠ 0 then .next (s.scalar c.val t.val g (fun _ s => s.illegal c.val t.val 0x05))
  else .next (s.toG c.val t.val g gd (fun x =>
    let a := x.g ga.val
    if kind = 0 then a <<< n else if kind = 1 then a >>> n else a.sshiftRight n))

def execLim (c : Fin 128) (t : Fin 8) (g : Guard) (gd : Fin 32) (imm : BitVec 17) (s : State) : Host.Outcome State Fault Refusal :=
  .next (s.toG c.val t.val g gd (fun _ => imm.signExtend 64))

/-- LSH: IMM17[16] must be zero (R211). -/
def execLsh (c : Fin 128) (t : Fin 8) (g : Guard) (gd : Fin 32) (imm : BitVec 17) (s : State) : Host.Outcome State Fault Refusal :=
  if bit imm 16 then .next (s.scalar c.val t.val g (fun _ s => s.illegal c.val t.val 0x07))
  else .next (s.toG c.val t.val g gd (fun x => (x.g gd.val <<< 16) ||| imm.setWidth 64))

/-! ### Compares and predicates (R213) -/

/-- How two values stand under a condition; `none` for a reserved code. -/
def condition (cond : Nat) (a b : Dword) : Option Bool :=
  let fa := vB32 (a.toNat % 2 ^ 32)
  let fb := vB32 (b.toNat % 2 ^ 32)
  let nan := fa.isNan || fb.isNan
  match cond with
  | 0 => some (a == b)
  | 1 => some (a != b)
  | 2 => some (decide (a.toInt < b.toInt))
  | 3 => some (decide (a.toInt ≥ b.toInt))
  | 4 => some (decide (a.toNat < b.toNat))
  | 5 => some (decide (a.toNat ≥ b.toNat))
  | 8 => some (!nan && Val.cmp fa fb == .lt)
  | 9 => some (!nan && Val.cmp fa fb != .gt)
  | 10 => some (!nan && Val.cmp fa fb == .eq)
  | 11 => some nan
  | 12 => some (a &&& b != 0)
  | _ => none

/-- The combine field CB (R213). -/
def combine (cb : Nat) (old c : Bool) : Bool :=
  if cb = 0 then c else if cb = 1 then old && c else if cb = 2 then old || c else old && !c

/-- A compare with operand `b` writes its predicate; a reserved condition is ILLEGAL. -/
def State.compare (s : State) (l t op : Nat) (g : Guard) (pd : Fin 8) (cb : BitVec 2) (ok : Bool) (cond : Nat) (ga : Fin 32)
    (b : Thread → Dword) : State :=
  s.scalar l t g (fun x s =>
    match (if ok then condition cond (x.g ga.val) (b x) else none) with
    | some v => s.setThread l t (x.next.setP pd.val (combine cb.toNat (x.p pd.val) v))
    | none => s.illegal l t op)

/-- CMP: COND in FN [3:0]; FN [6:4] must be zero (R210). -/
def execCmp (c : Fin 128) (t : Fin 8) (g : Guard) (pd : Fin 8) (cb : BitVec 2) (ga gb : Fin 32) (fn : BitVec 7) (s : State) :
    Host.Outcome State Fault Refusal :=
  .next (s.compare c.val t.val 0x08 g pd cb (bits fn 4 3 == 0) (bits fn 0 4) ga (fun x => x.g gb.val))

/-- CMPI: the codes from 0x8 on are reserved too (R213). -/
def execCmpi (c : Fin 128) (t : Fin 8) (g : Guard) (pd : Fin 8) (cb : BitVec 2) (ga : Fin 32) (cond : BitVec 4) (imm : BitVec 8)
    (s : State) : Host.Outcome State Fault Refusal :=
  .next (s.compare c.val t.val 0x09 g pd cb (decide (cond.toNat < 8)) cond.toNat ga (fun _ => imm.signExtend 64))

/-- PLOG: FN 0 AND, 1 OR, 2 XOR, 3 AND NOT (R211). -/
def execPlog (c : Fin 128) (t : Fin 8) (g : Guard) (pd pa pb : Fin 8) (low : BitVec 13) (s : State) :
    Host.Outcome State Fault Refusal :=
  .next (s.scalar c.val t.val g (fun x s =>
    let a := x.p pa.val
    let b := x.p pb.val
    if low.toNat > 3 then s.illegal c.val t.val 0x0A
    else
      let v := match low.toNat with
        | 0 => a && b
        | 1 => a || b
        | 2 => a != b
        | _ => a && !b
      s.setThread c.val t.val (x.next.setP pd.val v)))

/-! ### Caches (R203, R204) -/

/-- The bytes of a pending store laid over a line (R202: a thread sees its stores in program order). -/
def overlay (line : Nat) (data : BitVec 512) (st : PendStore) : BitVec 512 :=
  st.data.zipIdx.foldl (fun d b =>
    if (st.addr + b.2) / 64 = line then setBits d (8 * ((st.addr + b.2) % 64)) 8 b.1.toNat else d) data

/-- A line of the panel cache as a core's data cache takes it: the core's own stores that are still on their way included. -/
def State.withStores (s : State) (l line : Nat) (data : BitVec 512) : BitVec 512 :=
  (s.core l).threads.foldl (fun d x => x.2.stores.foldl (overlay line) d) data

/-- The line that leaves a cache of `sets` sets and 4 ways for `line`, if its set is full; which one is open (R203). -/
def State.victim (s : State) (t : Tab (BitVec 512)) (sets line : Nat) : Option Nat :=
  let set := t.filter (fun x => x.1 % sets == line % sets)
  if set.length < 4 ∨ (t.find? line).isSome then none else some (s.pick (set.map (·.1)))

/-- A line enters the data cache of core `l`, of 256 sets, or its instruction cache, of 128 (R203). -/
def State.fillLine (s : State) (l : Nat) (inst : Bool) (line : Nat) (data : BitVec 512) : State :=
  let k := s.core l
  let t := if inst then k.icache else k.dcache
  let v := s.victim t (if inst then 128 else 256) line
  let t := ((v.map t.drop).getD t).put line data
  let s := if v.isSome then s.drew else s
  if inst then s.setCore l { k with icache := t, iBad := k.iBad.filter (· != line) }
  else s.setCore l { k with dcache := t, dBad := k.dBad.filter (· != line) }

/-- A line as core `l` finds it in its data cache: one whose check bits are wrong is invalidated, and fetched again (R208). -/
def State.dataLine (s : State) (l line : Nat) : Option (BitVec 512) × State :=
  let k := s.core l
  if k.dBad.contains line then (none, s.setCore l { k with dcache := k.dcache.drop line, dBad := k.dBad.filter (· != line) })
  else (k.dcache.find? line, s)

/-- The same of the instruction cache, by its parity (R208). -/
def State.instLine (s : State) (l line : Nat) : Option (BitVec 512) × State :=
  let k := s.core l
  if k.iBad.contains line then (none, s.setCore l { k with icache := k.icache.drop line, iBad := k.iBad.filter (· != line) })
  else (k.icache.find? line, s)

/-- `w` bytes of a line as a number. -/
def lineVal (data : BitVec 512) (a w : Nat) : Nat := bits data (8 * (a % 64)) (8 * w)

/-- What a load of `w` bytes writes: zero-extended, or sign-extended from 32 bits. -/
def loaded (sx : Bool) (v : Nat) : Dword := if sx then (BitVec.ofNat 32 v).signExtend 64 else BitVec.ofNat 64 v

/-- Whether a controller holds a request of the thread. -/
def State.requested (s : State) (l t : Nat) : Bool := s.mc.reqs.any (fun x => x.2.any (fun r => r.core == l && r.thread == t))

/-- A request of the thread to its memory controller (R362, R363): it comes after every request issued before it, and of those
issued in its cycle after the ones of a lower physical core (R214). -/
def State.request_ (s : State) (l t a : Nat) (op : MemOp) : State :=
  let r : HbmReq := { addr := a, op := op, core := l, thread := t, part := (s.thread l t).part.toNat, at_ := s.cycles, entered := s.cycles }
  let first (x : HbmReq) : Bool := decide (x.at_ < r.at_) || decide (s.under x.core ≤ s.under l)
  s.setMc { s.mc with reqs := s.mc.reqs.upd [] (hbmMap a).pc (fun rs => rs.takeWhile first ++ r :: rs.dropWhile first) }

/-- The thread waits on a memory access (R200); one to HBM that no cache answers goes to the controller. -/
def State.startAccess (s : State) (l t a : Nat) (op : MemOp) (cached : Bool) : State :=
  let s := s.setThread l t { s.thread l t with st := .wait, wait := .data op a none }
  if a ≥ hbmEnd ∨ (cached && (s.pcache.find? (pkey (s.panelOf l) (a / 64))).isSome) = true then s else s.request_ l t a op

/-- The address of an access: ga + IMM12, 64 bits. -/
def ea (x : Thread) (ga : Fin 32) (imm : BitVec 12) : Nat := (x.g ga.val + imm64 imm).toNat

/-- An access that R207 permits goes on with `f`; else its exception. -/
def State.checked (s : State) (l t a w : Nat) (plain : Bool) (f : State → State) : State :=
  match s.accessFault (s.thread l t).part.toNat a w plain with
  | some cause => s.except l t cause 0 (some a)
  | none => f s

/-- A cached load (R203, R211): a hit writes gd, a miss waits. -/
def State.loadC (s : State) (l t : Nat) (g : Guard) (gd ga : Fin 32) (imm : BitVec 12) (w : Nat) (sx : Bool) : State :=
  s.scalar l t g (fun x s =>
    let a := ea x ga imm
    s.checked l t a w false (fun s =>
      match s.dataLine l (a / 64) with
      | (some d, s) => s.setThread l t (x.next.setG gd.val (loaded sx (lineVal d a w)))
      | (none, s) => s.startAccess l t a (.loadCached w sx gd.val) true))

def execLdb (c : Fin 128) (t : Fin 8) (g : Guard) (gd ga : Fin 32) (imm : BitVec 12) (s : State) : Host.Outcome State Fault Refusal :=
  .next (s.loadC c.val t.val g gd ga imm 1 false)
def execLdh (c : Fin 128) (t : Fin 8) (g : Guard) (gd ga : Fin 32) (imm : BitVec 12) (s : State) : Host.Outcome State Fault Refusal :=
  .next (s.loadC c.val t.val g gd ga imm 2 false)
def execLdw (c : Fin 128) (t : Fin 8) (g : Guard) (gd ga : Fin 32) (imm : BitVec 12) (s : State) : Host.Outcome State Fault Refusal :=
  .next (s.loadC c.val t.val g gd ga imm 4 false)
def execLdws (c : Fin 128) (t : Fin 8) (g : Guard) (gd ga : Fin 32) (imm : BitVec 12) (s : State) : Host.Outcome State Fault Refusal :=
  .next (s.loadC c.val t.val g gd ga imm 4 true)
def execLdd (c : Fin 128) (t : Fin 8) (g : Guard) (gd ga : Fin 32) (imm : BitVec 12) (s : State) : Host.Outcome State Fault Refusal :=
  .next (s.loadC c.val t.val g gd ga imm 8 false)

/-- An uncached load (R205, R207). -/
def State.loadU (s : State) (l t : Nat) (g : Guard) (gd ga : Fin 32) (imm : BitVec 12) (w : Nat) : State :=
  s.scalar l t g (fun x s =>
    let a := ea x ga imm
    s.checked l t a w true (fun s => s.startAccess l t a (.loadUncached w gd.val) false))

def execLdwx (c : Fin 128) (t : Fin 8) (g : Guard) (gd ga : Fin 32) (imm : BitVec 12) (s : State) : Host.Outcome State Fault Refusal :=
  .next (s.loadU c.val t.val g gd ga imm 4)
def execLddx (c : Fin 128) (t : Fin 8) (g : Guard) (gd ga : Fin 32) (imm : BitVec 12) (s : State) : Host.Outcome State Fault Refusal :=
  .next (s.loadU c.val t.val g gd ga imm 8)

/-- A cached store (R203): it updates a resident line of the core's data cache and goes on to the panel cache. -/
def State.storeC (s : State) (l t : Nat) (g : Guard) (gs ga : Fin 32) (imm : BitVec 12) (w : Nat) : State :=
  s.scalar l t g (fun x s =>
    let a := ea x ga imm
    s.checked l t a w false (fun s =>
      let st : PendStore := { addr := a, data := toBytes w (x.g gs.val).toNat, at_ := s.cycles }
      let s := s.setThread l t { x.next with stores := x.stores ++ [st] }
      match s.dataLine l (a / 64) with
      | (some d, s) => s.setCore l { s.core l with dcache := (s.core l).dcache.put (a / 64) (overlay (a / 64) d st) }
      | (none, s) => s))

def execStb (c : Fin 128) (t : Fin 8) (g : Guard) (gs ga : Fin 32) (imm : BitVec 12) (s : State) : Host.Outcome State Fault Refusal :=
  .next (s.storeC c.val t.val g gs ga imm 1)
def execSth (c : Fin 128) (t : Fin 8) (g : Guard) (gs ga : Fin 32) (imm : BitVec 12) (s : State) : Host.Outcome State Fault Refusal :=
  .next (s.storeC c.val t.val g gs ga imm 2)
def execStw (c : Fin 128) (t : Fin 8) (g : Guard) (gs ga : Fin 32) (imm : BitVec 12) (s : State) : Host.Outcome State Fault Refusal :=
  .next (s.storeC c.val t.val g gs ga imm 4)
def execStd (c : Fin 128) (t : Fin 8) (g : Guard) (gs ga : Fin 32) (imm : BitVec 12) (s : State) : Host.Outcome State Fault Refusal :=
  .next (s.storeC c.val t.val g gs ga imm 8)

/-- An uncached store (R205). -/
def State.storeU (s : State) (l t : Nat) (g : Guard) (gs ga : Fin 32) (imm : BitVec 12) (w : Nat) : State :=
  s.scalar l t g (fun x s =>
    let a := ea x ga imm
    s.checked l t a w true (fun s => s.startAccess l t a (.storeUncached w ((x.g gs.val).toNat % 2 ^ (8 * w))) false))

def execStwx (c : Fin 128) (t : Fin 8) (g : Guard) (gs ga : Fin 32) (imm : BitVec 12) (s : State) : Host.Outcome State Fault Refusal :=
  .next (s.storeU c.val t.val g gs ga imm 4)
def execStdx (c : Fin 128) (t : Fin 8) (g : Guard) (gs ga : Fin 32) (imm : BitVec 12) (s : State) : Host.Outcome State Fault Refusal :=
  .next (s.storeU c.val t.val g gs ga imm 8)

/-- An atomic (R214): it acts at the memory controller; the scale area raises ADDRESS. -/
def State.atomic (s : State) (l t : Nat) (g : Guard) (op : AmoOp) (w32 : Bool) (gd ga gb : Fin 32) : State :=
  s.scalar l t g (fun x s =>
    let a := (x.g ga.val).toNat
    let w := if w32 then 4 else 8
    let m := 2 ^ (8 * w)
    s.checked l t a w false (fun s =>
      s.startAccess l t a (.amo op w gd.val ((x.g gb.val).toNat % m) ((x.g gd.val).toNat % m)) false))

def execAmoSwap (c : Fin 128) (t : Fin 8) (g : Guard) (w32 : Bool) (gd ga gb : Fin 32) (s : State) : Host.Outcome State Fault Refusal :=
  .next (s.atomic c.val t.val g .swap w32 gd ga gb)
def execAmoAdd (c : Fin 128) (t : Fin 8) (g : Guard) (w32 : Bool) (gd ga gb : Fin 32) (s : State) : Host.Outcome State Fault Refusal :=
  .next (s.atomic c.val t.val g .add w32 gd ga gb)
def execAmoAnd (c : Fin 128) (t : Fin 8) (g : Guard) (w32 : Bool) (gd ga gb : Fin 32) (s : State) : Host.Outcome State Fault Refusal :=
  .next (s.atomic c.val t.val g .and w32 gd ga gb)
def execAmoOr (c : Fin 128) (t : Fin 8) (g : Guard) (w32 : Bool) (gd ga gb : Fin 32) (s : State) : Host.Outcome State Fault Refusal :=
  .next (s.atomic c.val t.val g .or w32 gd ga gb)
def execAmoXor (c : Fin 128) (t : Fin 8) (g : Guard) (w32 : Bool) (gd ga gb : Fin 32) (s : State) : Host.Outcome State Fault Refusal :=
  .next (s.atomic c.val t.val g .xor w32 gd ga gb)
def execAmoMaxu (c : Fin 128) (t : Fin 8) (g : Guard) (w32 : Bool) (gd ga gb : Fin 32) (s : State) : Host.Outcome State Fault Refusal :=
  .next (s.atomic c.val t.val g .maxu w32 gd ga gb)
def execAmoMinu (c : Fin 128) (t : Fin 8) (g : Guard) (w32 : Bool) (gd ga gb : Fin 32) (s : State) : Host.Outcome State Fault Refusal :=
  .next (s.atomic c.val t.val g .minu w32 gd ga gb)
def execAmoMax (c : Fin 128) (t : Fin 8) (g : Guard) (w32 : Bool) (gd ga gb : Fin 32) (s : State) : Host.Outcome State Fault Refusal :=
  .next (s.atomic c.val t.val g .max w32 gd ga gb)
def execAmoMin (c : Fin 128) (t : Fin 8) (g : Guard) (w32 : Bool) (gd ga gb : Fin 32) (s : State) : Host.Outcome State Fault Refusal :=
  .next (s.atomic c.val t.val g .min w32 gd ga gb)
def execAmoCas (c : Fin 128) (t : Fin 8) (g : Guard) (w32 : Bool) (gd ga gb : Fin 32) (s : State) : Host.Outcome State Fault Refusal :=
  .next (s.atomic c.val t.val g .cas w32 gd ga gb)

/-! ### Stores and fences (R204, R206) -/

/-- Every line that core `l` wrote since its last FENCE M is written back to HBM. -/
def State.cleanLines (s : State) (l : Nat) : State :=
  ((s.pcache.filter (fun x => x.2.dirty.contains l)).map (·.1)).foldl (fun s k => s.writeBack k) s

/-- What the condition of a fence brings with it, once the thread's stores have reached the panel cache. -/
def State.fenceActs (s : State) (l kind : Nat) : State :=
  if kind = 1 then s.cleanLines l
  else if kind = 3 then s.setCore l { s.core l with icache := [] } else s

/-- Whether the condition of a fence can hold now (R206). -/
def State.fenceReady (s : State) (l t kind : Nat) : Bool :=
  if kind = 2 then !s.hasLive l t else (s.thread l t).stores.isEmpty

/-- A fence of a kind: it retires at once, or the thread waits. -/
def State.fence (s : State) (l t : Nat) (g : Guard) (kind : Nat) : State :=
  s.scalar l t g (fun x s =>
    if s.fenceReady l t kind then (s.fenceActs l kind).setThread l t x.next
    else s.setThread l t { x.next with st := .wait, wait := .fence kind })

def execFenceP (c : Fin 128) (t : Fin 8) (g : Guard) (s : State) : Host.Outcome State Fault Refusal := .next (s.fence c.val t.val g 0)
def execFenceM (c : Fin 128) (t : Fin 8) (g : Guard) (s : State) : Host.Outcome State Fault Refusal := .next (s.fence c.val t.val g 1)
def execFenceT (c : Fin 128) (t : Fin 8) (g : Guard) (s : State) : Host.Outcome State Fault Refusal := .next (s.fence c.val t.val g 2)
def execFenceI (c : Fin 128) (t : Fin 8) (g : Guard) (s : State) : Host.Outcome State Fault Refusal := .next (s.fence c.val t.val g 3)

/-- A fence that waits for stores ends with the last of them. -/
def State.fenceEnds (s : State) (l t : Nat) : State :=
  let x := s.thread l t
  match x.wait with
  | .fence k =>
    if x.st = .wait ∧ k ≠ 2 ∧ x.stores.isEmpty then (s.fenceActs l k).setThread l t x.ready else s
  | _ => s

/-- The oldest store of a thread reaches the panel cache (R204): every other data cache of the panel gives up the line. -/
def State.reach (s : State) (l t : Nat) : State :=
  let x := s.thread l t
  match x.stores with
  | [] => s
  | st :: rest =>
    let line := st.addr / 64
    let panel := s.panelOf l
    let s := s.fillFrom l x.part.toNat line []
    let key := pkey panel line
    let y : PLine := s.pcache.get { data := 0 } key
    let s : State := { s with
      pcache := s.pcache.put key { y with data := overlay line y.data st, dirty := if y.dirty.contains l then y.dirty else l :: y.dirty }
      log := s.log.map (fun k => (k.1, if k.1 ≠ l ∧ s.panelOf k.1 = panel then { k.2 with dcache := k.2.dcache.drop line } else k.2)) }
    (s.setThread l t { s.thread l t with stores := rest }).fenceEnds l t

/-- Whether two stores write a common byte. -/
def PendStore.meets (a b : PendStore) : Bool := decide (a.addr < b.addr + b.data.length ∧ b.addr < a.addr + a.data.length)

/-- Threads of the panel of core `l` whose oldest store issued in the cycle of `st` and writes a byte that it writes, and which
the panel cache takes before that of thread `t`: those of a lower physical core, and of lower number within the core (R224). -/
def State.tiesBefore (s : State) (l t : Nat) (st : PendStore) : List (Nat × Nat) :=
  let cores := ((s.log.map (·.1)).filter (fun k => s.present k && s.panelOf k == s.panelOf l)).mergeSort
    (fun a b => decide (s.under a ≤ s.under b))
  (cores.flatMap (fun k => (upTo 8).map (fun n => (k, n)))).filter (fun x =>
    decide (s.under x.1 < s.under l ∨ x.1 = l ∧ x.2 < t)
      && (match (s.thread x.1 x.2).stores with
        | y :: _ => y.at_ == st.at_ && y.meets st
        | [] => false))

/-- STORE_REACHES_PANEL_CACHE (R204): the oldest store of the thread, after those that R224 orders before it. -/
def execStoreReachesPanelCache (c : Fin 128) (t : Fin 8) (s : State) : Host.Outcome State Fault Refusal :=
  match (s.thread c.val t.val).stores with
  | [] => .next s
  | st :: _ => .next (((s.tiesBefore c.val t.val st).foldl (fun s x => s.reach x.1 x.2) s).reach c.val t.val)

/-! ### Branches (R211) -/

/-- BRL: gd = pc + 4, pc = pc + 4 × OFF17. -/
def execBrl (c : Fin 128) (t : Fin 8) (g : Guard) (gd : Fin 32) (off : BitVec 17) (s : State) : Host.Outcome State Fault Refusal :=
  .next (s.scalar c.val t.val g (fun x s =>
    s.setThread c.val t.val { x.setG gd.val ((x.pc + 4).setWidth 64) with pc := x.pc + 4 * off.signExtend 48 }))

/-- JR: gd = pc + 4, pc = ga with bits [1:0] cleared; FN must be zero. -/
def execJr (c : Fin 128) (t : Fin 8) (g : Guard) (gd ga : Fin 32) (fn : BitVec 7) (s : State) : Host.Outcome State Fault Refusal :=
  .next (s.scalar c.val t.val g (fun x s =>
    if fn ≠ 0 then s.illegal c.val t.val 0x29
    else s.setThread c.val t.val { x.setG gd.val ((x.pc + 4).setWidth 64) with pc := (x.g ga.val).setWidth 48 &&& ~~~3 }))

/-! ### Commands (R215 to R220) -/

/-- The descriptor that TCMD read enters the core command queue, or the thread waits, or NB returns all ones (R215). -/
def State.issueCmd (s : State) (l t rd : Nat) (nb discard : Bool) (d : BitVec 512) : State :=
  match s.tryTcmd l t d discard with
  | some (tag, s) => s.setThread l t ((s.thread l t).ready.setG rd (BitVec.ofNat 64 tag))
  | none =>
    if nb then s.setThread l t ((s.thread l t).ready.setG rd (BitVec.allOnes 64))
    else
      let k := s.core l
      let s := s.setCore l { k with waited := k.waited + 1 }
      s.setThread l t { s.thread l t with st := .wait, wait := .queue d rd discard k.waited }

/-- TCMD (R215). -/
def execTcmd (c : Fin 128) (t : Fin 8) (g : Guard) (gd ga : Fin 32) (imm : BitVec 12) (s : State) : Host.Outcome State Fault Refusal :=
  let l := c.val
  let t := t.val
  .next (s.scalar l t g (fun x s =>
    let a := (x.g ga.val).toNat
    let nb := bit imm 0
    let discard := bit imm 1
    if bits imm 2 10 ≠ 0 then s.illegal l t 0x30
    else s.checked l t a 64 false (fun s =>
      match s.dataLine l (a / 64) with
      | (some d, s) => (s.setThread l t x.next).issueCmd l t gd.val nb discard d
      | (none, s) => s.startAccess l t a (.descr gd.val nb discard) true)))

/-- TWAIT (R218). A tag that a queue command holds (R232) is not the thread's own. -/
def execTwait (c : Fin 128) (t : Fin 8) (g : Guard) (gd ga : Fin 32) (imm : BitVec 12) (s : State) : Host.Outcome State Fault Refusal :=
  let l := c.val
  let t := t.val
  .next (s.scalar l t g (fun x s =>
    let tag := (x.g ga.val).toNat
    let give (s : State) (w : Dword) : State := s.setThread l t (x.next.setG gd.val w)
    if bits imm 1 11 ≠ 0 then s.illegal l t 0x31
    else if tag / 512 ≠ t then give s (retireWord 0x80 0 false)
    else match (s.core l).tags.find? tag with
      | none => give s (retireWord 0x80 0 false)
      | some e =>
        if e.ctx ≠ .thread t then give s (retireWord 0x80 0 false)
        else match e.word with
        | some w =>
          let s := give s w
          s.setCore l { s.core l with tags := (s.core l).tags.drop tag }
        | none =>
          if bit imm 0 then give s (retireWord 0x81 0 false)
          else s.setThread l t { x.next with st := .wait, wait := .twait tag gd.val }))

/-- RDSUM (R219). -/
def execRdsum (c : Fin 128) (t : Fin 8) (g : Guard) (gd : Fin 32) (imm : BitVec 12) (s : State) : Host.Outcome State Fault Refusal :=
  let l := c.val
  let t := t.val
  .next (s.scalar l t g (fun x s =>
    let slot := bits imm 0 2
    if bits imm 3 9 ≠ 0 then s.illegal l t 0x32
    else if s.slotPending l (4 * t + slot) && !bit imm 2 then s.setThread l t { x.next with st := .wait, wait := .summary slot gd.val }
    else s.setThread l t (x.next.setG gd.val ((s.core l).sums.get 0 (4 * t + slot)))))

/-- RDFLG (R220): returns and clears a flag set. -/
def execRdflg (c : Fin 128) (t : Fin 8) (g : Guard) (gd : Fin 32) (imm : BitVec 12) (s : State) : Host.Outcome State Fault Refusal :=
  let l := c.val
  let t := t.val
  .next (s.scalar l t g (fun x s =>
    let k := bits imm 0 2
    if k = 3 then s.illegal l t 0x33
    else
      let f := (s.core l).flags.get 0 k
      let s := s.setThread l t (x.next.setG gd.val (f.setWidth 64))
      s.setCore l { s.core l with flags := (s.core l).flags.put k 0 }))

/-- MFS (R221). -/
def execMfs (c : Fin 128) (t : Fin 8) (g : Guard) (gd : Fin 32) (imm : BitVec 12) (s : State) : Host.Outcome State Fault Refusal :=
  let l := c.val
  .next (s.scalar l t.val g (fun x s =>
    let give (v : Nat) : State := s.setThread l t.val (x.next.setG gd.val (BitVec.ofNat 64 v))
    match imm.toNat with
    | 0 => give t.val
    | 1 => give l
    | 2 => give x.part.toNat
    | 3 => give s.turnNo
    | 4 => give s.time
    | 5 => give s.cycles
    | 6 => give x.issued.toNat
    | _ => s.illegal l t.val 0x34))

/-! ### Waits, traps, halts (R200, R211, R222, R223) -/

/-- PAUSE: a wait of ga + IMM12 cycles, which PAUSE_EXPIRY ends. -/
def execPause (c : Fin 128) (t : Fin 8) (g : Guard) (ga : Fin 32) (imm : BitVec 12) (s : State) : Host.Outcome State Fault Refusal :=
  .next (s.scalar c.val t.val g (fun x s =>
    if (x.g ga.val).toNat + imm.toNat = 0 then s.setThread c.val t.val x.next
    else s.setThread c.val t.val { x.next with st := .wait, wait := .pause }))

/-- PAUSE_EXPIRY (R200). -/
def execPauseExpiry (c : Fin 128) (t : Fin 8) (s : State) : Host.Outcome State Fault Refusal :=
  let x := s.thread c.val t.val
  if x.st = .wait ∧ x.wait = .pause then .next (s.setThread c.val t.val x.ready) else .next s

/-- WTICK (R222): until the turn number reaches ga[47:0]; it waits while RUNNING is 0. -/
def execWtick (c : Fin 128) (t : Fin 8) (g : Guard) (ga : Fin 32) (s : State) : Host.Outcome State Fault Refusal :=
  .next (s.scalar c.val t.val g (fun x s =>
    let n := (x.g ga.val).toNat % 2 ^ 48
    if s.turn.running && decide (s.turnNo ≥ n) then s.setThread c.val t.val x.next
    else s.setThread c.val t.val { x.next with st := .wait, wait := .wtick n }))

/-- Threads whose WTICK a tick ends (R222). -/
def State.wakeTicks (s : State) : State :=
  if !s.turn.running then s
  else
    let wakes (x : Thread) : Thread := match x.wait with
      | .wtick n => if x.st = .wait ∧ s.turnNo ≥ n then x.ready else x
      | _ => x
    { s with log := s.log.map (fun k => (k.1, { k.2 with threads := k.2.threads.map (fun x =>
      (x.1, if s.frozen k.1 x.1 then x.2 else wakes x.2)) })) }

/-- TRAP (R223): CODE holds IMM12. -/
def execTrap (c : Fin 128) (t : Fin 8) (g : Guard) (imm : BitVec 12) (s : State) : Host.Outcome State Fault Refusal :=
  .next (s.scalar c.val t.val g (fun _ s => s.except c.val t.val 6 imm.toNat none))

/-- HALT (R200): HALTED, and CCR_EVENT.HALT. -/
def execHalt (c : Fin 128) (t : Fin 8) (g : Guard) (s : State) : Host.Outcome State Fault Refusal :=
  .next (s.scalar c.val t.val g (fun x s => (s.setThread c.val t.val { x.next with st := .halted }).ccr c.val (8 + t.val)))

/-! ### The end of a memory access (R200, R208, R223, R224) -/

/-- A wait on memory ends and leaves the thread as `x`, or OFF where RUN was written 0 meanwhile (R224). -/
def State.memoryEnds (s : State) (l t : Nat) (x : Thread) : State :=
  s.setThread l t (if x.stopPending then { x with st := .off, stopPending := false } else x)

/-- The access is complete: the thread goes on past the instruction. -/
def State.accessDone (s : State) (l t : Nat) (f : Thread → Thread) : State := s.memoryEnds l t (f (s.thread l t).ready.next)

/-- BUS (R208, R223): also an entry of the fault record. -/
def State.busFault (s : State) (l t a : Nat) : State :=
  let stop := (s.thread l t).stopPending
  let s := (s.except l t 5 0 (some a)).fault 0x03 2 5 (s.under l * 8 + t) a
  if stop then s.setThread l t { s.thread l t with st := .off, stopPending := false } else s

/-- The panel cache has the line that an access or a fetch waits for: it fills the core's cache, and `f` takes it. A line that
left the panel cache meanwhile, or whose errors send it away (R208), is asked for again. -/
def State.withLine (s : State) (l t a : Nat) (op : MemOp) (f : BitVec 512 → State → State) : State :=
  let line := a / 64
  match s.panelRead (pkey (s.panelOf l) line) with
  | (none, s) => if s.requested l t then s else s.request_ l t a op
  | (some y, s) =>
    if y.poison then s.busFault l t a
    else
      let d := if op = .fetch then y.data else s.withStores l line y.data
      f d (s.fillLine l (op == .fetch) line d)

/-- LOAD_RETURN (R200): the memory access of the thread completes. Accesses to the scale area act here (R207). -/
def execLoadReturn (c : Fin 128) (t : Fin 8) (s : State) : Host.Outcome State Fault Refusal :=
  let l := c.val
  let t := t.val
  let x := s.thread l t
  let w_ : Writer := .part ⟨x.part.toNat % 16, Nat.mod_lt _ (by decide)⟩
  if x.st ≠ .wait then .next s
  else match x.wait with
    | .data op a res =>
      match op with
      | .loadCached w sx rd =>
        .next (s.withLine l t a op (fun d s => s.accessDone l t (fun x => x.setG rd (loaded sx (lineVal d a w)))))
      | .descr rd nb discard =>
        .next (s.withLine l t a op (fun d s =>
          if x.stopPending then s.accessDone l t id
          else (s.accessDone l t id).issueCmd l t rd nb discard d))
      | .fetch => .next (s.withLine l t a op (fun _ s => s.memoryEnds l t (s.thread l t).ready))
      | .loadUncached w rd =>
        if a ≥ hbmEnd then .next (s.accessDone l t (fun x => x.setG rd (BitVec.ofNat 64 (ofBytes (s.recRead w_ a w)))))
        else match res with
          | some (v, false) => .next (s.accessDone l t (fun x => x.setG rd (BitVec.ofNat 64 v)))
          | some (_, true) => .next (s.busFault l t a)
          | none => .next s
      | .storeUncached w v =>
        if a ≥ hbmEnd then .next ((s.recPut w_ a (toBytes w v)).accessDone l t id)
        else match res with
          | some _ => .next (s.accessDone l t id)
          | none => .next s
      | .amo _ _ rd _ _ =>
        match res with
        | some (v, false) => .next (s.accessDone l t (fun x => x.setG rd (BitVec.ofNat 64 v)))
        | some (_, true) => .next (s.busFault l t a)
        | none => .next s
    | _ => .next s

/-! ### Thread controls (R224 to R226) -/

/-- Whether a write of RUN by a requester acts on a thread: Joinery's does, and a host's on a thread of a partition it owns
(R15, R225). -/
def State.mayRun (s : State) (r : Requester) (l t : Nat) : Bool :=
  r == .joinery || s.hears r && s.ownsPart r (s.thread l t).part.toNat

/-- RUN written 1 (R226): it acts from OFF, FAULTED and HALTED. -/
def State.writeRun1 (s : State) (r : Requester) (i t : Nat) : State :=
  match s.logOf i with
  | none => s
  | some l =>
    let x := s.thread l t
    if !s.mayRun r l t || x.st == .ready || x.st == .wait then s else s.startThread l t x.start.toNat

/-- THREAD_RUN (R226). -/
def execThreadRun (r : Requester) (q : Fin 136) (t : Fin 8) (s : State) : Host.Outcome State Fault Refusal :=
  .next (s.writeRun1 r q.val t.val)

/-- RUN written 0 (R224, R226). -/
def State.writeRun0 (s : State) (r : Requester) (i t : Nat) : State :=
  match s.logOf i with
  | none => s
  | some l => if s.mayRun r l t then s.stopThread l t else s

/-- THREAD_STOP (R224). -/
def execThreadStop (r : Requester) (q : Fin 136) (t : Fin 8) (s : State) : Host.Outcome State Fault Refusal :=
  .next (s.writeRun0 r q.val t.val)

/-- CODE_INV (R225): the invalidation begins; CODE_INV reads 1 until it is complete. -/
def execCodeInv (r : Requester) (q : Fin 136) (s : State) : Host.Outcome State Fault Refusal :=
  if s.hears r then .next (s.setFld (coreWin q.val + 8) 0 1 1) else .next s

/-- CODE_INV_DONE (R225): the instruction cache and the clean lines of the panel cache are invalid. -/
def execCodeInvDone (q : Fin 136) (s : State) : Host.Outcome State Fault Refusal :=
  let i := q.val
  if s.fld (coreWin i + 8) 0 1 = 0 then .next s
  else
    let s := s.setFld (coreWin i + 8) 0 1 0
    let s : State := { s with pcache := s.pcache.filter (fun x => x.1 / 2 ^ 40 != i / 17 || !x.2.dirty.isEmpty) }
    match s.logOf i with
    | some l => .next ((s.setCore l { s.core l with icache := [] }).ccr l 16)
    | none => .next s

end Sys2Proof.Machine
end

