-- ==== Sys2Proof/Machine/Host.lean ====
section
/-!
DEFINITION. Machine/Host.lean: the host ports (R457 to R466): resets of one port, configuration requests, and accesses
through BAR2.
-/
namespace Sys2Proof.Machine

/-! ### Resets of one port (R466, R651) -/

/-- The commands of queue `q` of a port that is reset (R466): they stop at their next tile boundaries and retire with HQ_PORT_RESET, and
no record is written. -/
def State.resetQueue (s : State) (q : Nat) : State :=
  let v := s.queue q
  if v.st = .off then s
  else
    -- the queue enters ERROR with cause PORT_RESET first: from then on records are only counted
    let s := if v.st = .error then s.setQueue q { v with cause := 4 } else s.queueError q 4
    let waits := (s.queue q).fetched
    let s := s.setQueue q { s.queue q with fetched := [] }
    let s := waits.foldl (fun s x => s.recordNoTag q x.1 0xA2 false) s
    let s := s.turn.progs.foldl (fun s x =>
      match x.2.src, s.prog? x.1 with
      | .turn q' _, some p =>
        if q' ≠ q then s
        else if s.atBoundary x.1 p then s.resetProg x.1 p
        else s.setProg x.1 { p with reset := true }
      | _, _ => s) s
    let s := s.stopQueued q
    -- ring reads that will not complete
    s.host.reads.foldl (fun s x =>
      match x.2.use with
      | .ring q' first n => if q' = q then (s.setHost { s.host with reads := s.host.reads.drop x.1 }).ringFail q first n else s
      | _ => s) s

/-- What a reset, link-down or move to D3hot of port `p` does (R466). -/
def State.resetPort (s : State) (p : Nat) : State :=
  let mine := (s.host.queues.map (·.1)).filter (fun q => s.qOwner q == p + 1)
  let s := mine.foldl (fun s q => s.resetQueue q) s
  let lo := msxBase p 0
  let s := { s with regs := s.regs.filter (fun r => !(decide (lo ≤ r.1) && decide (r.1 < lo + 0x10000))) }
  s.setHport p { s.hport p with funcMask := false }

/-- HOST_PORT_RESET (R466): a hot reset or a loss of the link. -/
def execHostPortReset (p : Fin 2) (s : State) : Host.Outcome State Fault Refusal :=
  let s := s.resetPort p.val
  .next (s.setHport p.val { s.hport p.val with link := false })

/-- FUNCTION_LEVEL_RESET (R466): the port then sends Function Readiness Status. -/
def execFunctionLevelReset (p : Fin 2) (s : State) : Host.Outcome State Fault Refusal :=
  let s := s.resetPort p.val
  .next ((s.setHport p.val { s.hport p.val with d3hot := false }).emit (.readiness p.val true))

/-- D3HOT_ENTRY (R458, R466): as an FLR; the function then hears configuration requests alone. -/
def execD3hotEntry (p : Fin 2) (s : State) : Host.Outcome State Fault Refusal :=
  let s := s.resetPort p.val
  .next (s.setHport p.val { s.hport p.val with d3hot := true })

/-- PERST_N (R466, R583, R651): the port alone is reset and retrains; a start in progress goes on. -/
def execPerstN (p : Fin 2) (s : State) : Host.Outcome State Fault Refusal :=
  let s := if s.start.ready then s.resetPort p.val else s
  .next (s.setHport p.val { s.hport p.val with link := false, retraining := true, d3hot := false })

/-! ### Configuration requests (R458 to R465) -/

/-- WBASE made a multiple of the BAR2 size (R462). -/
def HostPort.align (h : HostPort) : HostPort := { h with wbase := h.wbase / 2 ^ (30 + h.bar2Log) * 2 ^ (30 + h.bar2Log) }

/-- The value of a configuration field. -/
def State.cfgRead (s : State) (p : Nat) : CfgReg → Nat
  | .identifiers => (s.reg 0).toNat % 2 ^ 16 + (s.reg 4).toNat % 2 ^ 16 * 2 ^ 16
  | .classCode => 0x120000 * 2 ^ 8 + (s.reg 4).toNat / 2 ^ 16 % 2 ^ 8
  | .dvsecPort => p + b2n s.start.ready * 2
  | .wbaseLo => (s.hport p).wbase % 2 ^ 32 / 2 ^ 30 * 2 ^ 30
  | .wbaseHi => (s.hport p).wbase / 2 ^ 32 % 2 ^ 16
  | .bar2Size => (s.hport p).bar2Log
  | .functionMask => b2n (s.hport p).funcMask
  | .powerState => if (s.hport p).d3hot then 3 else 0

/-- A write of a configuration field. -/
def State.cfgWrite (s : State) (p : Nat) (reg : CfgReg) (v : Word) : State :=
  let h := s.hport p
  match reg with
  | .wbaseLo => s.setHport p ({ h with wbase := h.wbase / 2 ^ 32 * 2 ^ 32 + bits v 30 2 * 2 ^ 30 }).align
  | .wbaseHi => s.setHport p ({ h with wbase := h.wbase % 2 ^ 32 + bits v 0 16 * 2 ^ 32 }).align
  | .bar2Size => if v.toNat ≤ 10 then s.setHport p ({ h with bar2Log := v.toNat }).align else s
  | .functionMask => if bit v 0 then s.setHport p { h with funcMask := true } else s.unmask p none
  | .powerState =>
    if bits v 0 2 = 0 then s.setHport p { h with d3hot := false }
    else if bits v 0 2 = 3 ∧ !h.d3hot then
      let s := s.resetPort p
      s.setHport p { s.hport p with d3hot := true }
    else s
  | _ => s

/-- Whether the ports are powered and past the step that starts their training (R568, R579). -/
def State.portsLive (s : State) : Bool :=
  s.start.input && !s.start.dieOff && !s.flt.shutdown && (s.start.ready || s.start.kind != 0 || decide (s.start.step ≥ 2))

/-- CONFIGURATION_REQUEST (R465, R570, R579): Request Retry Status during a start; in the recovery stand and after ready it is
completed normally. A request that arrives shows that the link is up. -/
def execConfigurationRequest (p : Fin 2) (reg : CfgReg) (wr : Option Word) (s : State) : Host.Outcome State Fault Refusal :=
  if !s.portsLive then .next s
  else
    let s := s.setHport p.val { s.hport p.val with link := true, retraining := false }
    if !s.start.ready ∧ s.start.kind ≠ 2 then .next (s.emit (.completion p.val .retry []))
    else match wr with
      | none => .next (s.emit (.completion p.val .success (toBytes 4 (s.cfgRead p.val reg))))
      | some v => .next ((s.cfgWrite p.val reg v).emit (.completion p.val .success []))

/-! ### BAR2 (R458, R460, R463) -/

/-- How an access that the function does not hear is completed (R570, R579, R582). -/
def State.deafStatus (s : State) : CplStatus := if s.start.ready || s.start.kind == 2 then .unsupported else .retry

/-- Where a BAR2 access lands. -/
inductive Bar2Target where
  | hbm (part addr : Nat)
  | record (addr : Nat)
  | none
  deriving DecidableEq, Repr

def State.bar2Target (s : State) (p off n : Nat) : Bar2Target :=
  let h := s.hport p
  let a := h.wbase + off
  if off + n > 2 ^ (30 + h.bar2Log) then .none
  else match s.rangeOwner a with
    | some q => if s.partHost q = p + 1 ∧ (n = 0 ∨ s.rangeOwner (a + n - 1) = some q) then .hbm q a else .none
    | none => if a ≥ 0xF000000000 ∧ (areaOf a).isSome then .record a else .none

/-- Charges a host's blocks to the partition that owns the range (R360). -/
def State.chargeHost (s : State) (part a n : Nat) : State :=
  if !s.regulated part then s
  else (pieces a n (n / 64 + 2)).foldl (fun s x =>
    let pc := (hbmMap x.1).pc
    s.setTokens pc part (s.hasTokens pc part - 4096)) s

/-- BAR2_READ (R463): data, a poisoned completion with all ones, or Unsupported Request. -/
def execBar2Read (p : Fin 2) (off : BitVec 40) (len : Fin 4096) (s : State) : Host.Outcome State Fault Refusal :=
  let n := len.val + 1
  let cpl (s : State) (c : CplStatus) (bs : List Byte) : State := s.emit (.completion p.val c bs)
  if !s.portsLive then .next s
  else if !s.hears (Requester.ofPort p.val) then .next (cpl s s.deafStatus [])
  else match s.bar2Target p.val off.toNat n with
    | .hbm q a =>
      let m := (s.chargeHost q a n).readHbm (some q) a n
      .next (if m.bad then cpl m.st .poisoned (List.replicate n 0xFF) else cpl m.st .success m.bytes)
    | .record a => .next (cpl s .success (s.recRead (.host p) a n))
    | .none => .next (cpl s .unsupported [])

/-- Writes the enabled bytes of one block (R350, R463): a part of a block leaves its poison. -/
def State.writeMasked (s : State) (part a : Nat) (bs : List (Option Byte)) : State :=
  if bs.all (·.isNone) then s
  else
    let bytes := bs.zipIdx.map (fun b => b.1.getD (memGet s.mem (a + b.2)))
    let was := s.poisoned (a / 64)
    let s := s.writePiece (some part) a bytes
    if was && bs.any (·.isNone) then s.setPoison (a / 64) else s

/-- BAR2_WRITE (R463): bytes that are `none` are not enabled. -/
def execBar2Write (p : Fin 2) (off : BitVec 40) (data : List (Option Byte)) (s : State) : Host.Outcome State Fault Refusal :=
  let n := data.length
  if !s.hears (Requester.ofPort p.val) then .next s
  else match s.bar2Target p.val off.toNat n with
    | .hbm q a =>
      let s := s.chargeHost q a n
      .next (((pieces a n (n / 64 + 2)).foldl
        (fun (x : State × List (Option Byte)) pc => (x.1.writeMasked q pc.1 (x.2.take pc.2), x.2.drop pc.2)) (s, data)).1)
    | .record a => .next (s.recWrite (.host p) a data)
    | .none => .next (s.emit (.aer p.val))

/-- BAR2_ATOMIC (R458): a FetchAdd, Swap or CAS of 32 or 64 bits on an HBM address; the old value is returned. -/
def execBar2Atomic (p : Fin 2) (off : BitVec 40) (op : PcieAtomic) (w64 : Bool) (a b : Dword) (s : State) :
    Host.Outcome State Fault Refusal :=
  let n := if w64 then 8 else 4
  if !s.portsLive then .next s
  else if !s.hears (Requester.ofPort p.val) then .next (s.emit (.completion p.val s.deafStatus []))
  else match s.bar2Target p.val off.toNat n with
    | .hbm q x =>
      if x % n ≠ 0 then .next (s.emit (.completion p.val .unsupported []))
      else
        let m := (s.chargeHost q x n).readHbm (some q) x n
        let old := ofBytes m.bytes
        let v := a.toNat % 2 ^ (8 * n)
        let new := match op with
          | .fetchAdd => amoNew .add n old v 0
          | .swap => amoNew .swap n old v 0
          | .cas => amoNew .cas n old (b.toNat % 2 ^ (8 * n)) v
        -- a CAS whose compare fails writes nothing, nor does an access of poison
        let s := if m.bad ∨ (op = .cas ∧ old ≠ v) then m.st else m.st.writePiece (some q) x (toBytes n new)
        .next (s.emit (.completion p.val (if m.bad then .poisoned else .success) (if m.bad then List.replicate n 0xFF else m.bytes)))
    | _ => .next (s.emit (.completion p.val .unsupported []))

end Sys2Proof.Machine
end

