-- ==== Sys2Proof/Machine/Trust.lean ====
section
/-!
DEFINITION. Machine/Trust.lean: module flash (R589), the Joinery image (R593, R594), the configuration record (R595 to R598),
measurements (R600), and signatures.
-/
namespace Sys2Proof.Machine

def State.setStart (s : State) (x : StartSt) : State := { s with start := x }
def State.setFlash (s : State) (x : FlashSt) : State := { s with flash := x }

/-- The `n` bytes at `off` of a byte list, and as a little-endian number. -/
def cut (bs : List Byte) (off n : Nat) : List Byte := (bs.drop off).take n
def num (bs : List Byte) (off n : Nat) : Nat := ofBytes (cut bs off n)

def State.flashImage (s : State) : List Byte := s.flash.image.getD Config.flashImage
def State.flashConfig (s : State) : List Byte := s.flash.config.getD Config.flashConfig

/-- Every byte of a range is zero. -/
def zeroIn (bs : List Byte) (lo hi : Nat) : Bool := (cut bs lo (hi - lo)).all (· == 0)

/-! ### The Joinery image (R593, R594) -/

def imgSvn (b : List Byte) : Nat := num b 8 4
def imgBody (b : List Byte) : List Byte := cut b 0x1000 (num b 0x10 4)

/-- Check 3: MAGIC, HDR_VER, BODY_LEN and the bytes that R593 does not list. -/
def imgHeaderOk (b : List Byte) : Bool :=
  cut b 0 4 == [0x4C, 0x5A, 0x38, 0x4A] && num b 4 2 == 1 && num b 0x10 4 % 4096 == 0
    && decide (num b 0x10 4 ≤ 64 * 2 ^ 20 - 4096) && decide (0x1000 + num b 0x10 4 ≤ b.length)
    && zeroIn b 6 8 && zeroIn b 0x18 0x40 && zeroIn b 0x80 0x100 && zeroIn b 0x184 0x1000

/-- Checks 1, 2, 4 and 5: the root, the certificate named by KEY_ID, the signature, the digest of the body. -/
def imgSigned (b : List Byte) : Bool :=
  sha512 (Config.certBytes 0) == Config.rootDigest && Config.certOk (num b 0x14 4)
    && Config.verifies (Config.certKey (num b 0x14 4)) (sha512 (cut b 0 0x100)) (cut b 0x100 132)
    && cut b 0x40 64 == sha512 (imgBody b)

/-- The five checks of R594. -/
def imgOk (b : List Byte) : Bool := imgHeaderOk b && imgSigned b

/-- The Joinery measurement: SHA-512 of header and body (R594). -/
def imgDigest (b : List Byte) : List Byte := sha512 (cut b 0 (0x1000 + num b 0x10 4))

/-! ### Keys (R590, R591) -/

/-- The order of P-521. PRESUMED (notes/assumptions/45.md). -/
def p521Order : Nat :=
  0x1FFFFFFFFFFFFFFFFFFFFFFFFFFFFFFFFFFFFFFFFFFFFFFFFFFFFFFFFFFFFFFFFFFFA51868783BF2F966B7FCC0148F709A5D03BB5C9B8899C47AEBB6FB71E91386409

/-- d = 1 + (T mod (n − 1)), T the first 640 bits of `t`, most significant first. -/
def keyFrom (t : List Byte) : Nat := 1 + ofBytes (t.take 80).reverse % (p521Order - 1)

/-- The secret S. -/
def pufSecret : List Byte := (upTo 32).map Config.pufSecret

/-- The identity key (R590): from the HMACs of "LZ8-ID-1" and "LZ8-ID-2". -/
def identityKey : Nat :=
  let msg (n : Byte) : List Byte := [0x4C, 0x5A, 0x38, 0x2D, 0x49, 0x44, 0x2D, n]
  keyFrom (hmac512 pufSecret (msg 0x31) ++ hmac512 pufSecret (msg 0x32))

/-- The attestation key for an image digest and a record digest (R591): from the HMAC of "LZ8-AK" and both. -/
def attestKey (image config : List Byte) : Nat :=
  keyFrom (hmac512 pufSecret ([0x4C, 0x5A, 0x38, 0x2D, 0x41, 0x4B] ++ image ++ config) ++ (upTo 16).map (Config.attestTail image config))

/-! ### The configuration record (R595, R596) -/

/-- A section: TYPE, OSEQ, body, signature, and the bytes that the signature covers. -/
structure Sect where
  type : Nat
  oseq : Nat
  body : List Byte
  sig : List Byte
  all : List Byte

/-- The sections of the bytes after the header. `fuel` bounds their number. -/
def sections : Nat → List Byte → List Sect
  | 0, _ => []
  | fuel + 1, b =>
    if b.length < 8 then []
    else
      let n := num b 4 4
      { type := num b 0 2, oseq := num b 2 2, body := cut b 8 n, sig := cut b (8 + n) 132, all := b.take (8 + n) }
        :: sections fuel (b.drop (8 + n + 132))

def cfgSections (b : List Byte) : List Sect := sections 2048 (cut b 0x100 (num b 8 4 - 0x100))

/-- A signature of the identity key over the record with SIG zeroed. -/
def cfgHeaderDigest (b : List Byte) : List Byte :=
  let n := num b 8 4
  sha512 (b.take 0x40 ++ List.replicate 132 0 ++ cut b 0xC4 (n - 0xC4))

/-- The largest record, 1 MiB. -/
def cfgMax : Nat := 0x100000

/-- MAGIC, LEN, the bytes that R595 does not list, and the signature of the identity key (R596). -/
def cfgHeaderOk (b : List Byte) : Bool :=
  cut b 0 4 == [0x4C, 0x5A, 0x38, 0x43] && Nat.ble 0x100 (num b 8 4) && decide (num b 8 4 ≤ cfgMax) && decide (num b 8 4 ≤ b.length)
    && zeroIn b 0x0E 0x40 && zeroIn b 0xC4 0x100 && Config.verifies identityKey (cfgHeaderDigest b) (cut b 0x40 132)

/-- The key that must have signed a section. The key of the owner before the present one is not in the record: what stands for
it is the manufacturing key or an open key. -/
def sectKey (x : Sect) : Nat := if x.type = 3 then identityKey else Config.mfgKey

def sectOk (x : Sect) : Bool :=
  Config.verifies (sectKey x) (sha512 x.all) x.sig || (x.type == 2 && Config.verifies (Config.keyOf x.all) (sha512 x.all) x.sig)

/-- R595, R596: every section verifies; one MFG, at most one OWNER, and OSEQ 0 outside OWNER. -/
def sectsOk (ss : List Sect) : Bool :=
  ss.all (fun x => sectOk x && (x.type == 2 || x.oseq == 0) && (x.type == 1 || x.type == 2 || x.type == 3))
    && ss.countP (·.type == 1) == 1 && Nat.ble (ss.countP (·.type == 2)) 1

/-- R596: a REPAIR section at the end whose signature does not verify is a torn append, and is ignored. -/
def untorn (ss : List Sect) : List Sect :=
  match ss.getLast? with
  | some x => if x.type == 3 && !sectOk x then ss.dropLast else ss
  | none => ss

/-- R596: the header, then every section. -/
def cfgOk (b : List Byte) : Bool := cfgHeaderOk b && sectsOk (untorn (cfgSections b))

/-- The sections that count: all whose signatures verify. -/
def cfgGood (b : List Byte) : List Sect := (cfgSections b).filter sectOk

def cfgMfg (b : List Byte) : List Byte := (((cfgGood b).find? (·.type == 1)).map (·.body)).getD []
def cfgOwner (b : List Byte) : Option Sect := (cfgGood b).find? (·.type == 2)
def cfgRepairs (b : List Byte) : List (List Byte) := ((cfgGood b).filter (·.type == 3)).map (·.body)

def cfgSeq (b : List Byte) : Nat := num b 4 4
/-- POLICY and MIN_SVN: the words after the 133 bytes of the owner's key; 0 without an OWNER section. -/
def cfgPolicy (b : List Byte) : Nat := ((cfgOwner b).map (fun x => num x.body 133 4)).getD 0
def cfgMinSvn (b : List Byte) : Nat := ((cfgOwner b).map (fun x => num x.body 137 4)).getD 0
def cfgOseq (b : List Byte) : Nat := ((cfgOwner b).map (·.oseq)).getD 0

/-- SHA-512 of the record. -/
def cfgDigest (b : List Byte) : List Byte := sha512 (b.take (num b 8 4))

/-! ### Signatures -/

/-- Signs a digest with a key: the 132 bytes R and S. -/
def State.sign (s : State) (key : Nat) (digest : List Byte) : List Byte × State :=
  ((upTo 132).map (fun i => Config.signature key s.drawn digest i), s.drew)

/-- Writes the record anew with the sections `ss`: SEQ + 1 and a new header signature (R597, R598). -/
def State.writeConfig (s : State) (ss : List Sect) (repairs : Nat) : State :=
  let b := s.flashConfig
  let body := ss.flatMap (fun x => x.all ++ x.sig)
  let head := [0x4C, 0x5A, 0x38, 0x43] ++ toBytes 4 (cfgSeq b + 1) ++ toBytes 4 (0x100 + body.length) ++ toBytes 2 repairs
    ++ List.replicate 50 0
  let rest := List.replicate 60 0 ++ body
  let (sig, s) := s.sign identityKey (sha512 (head ++ List.replicate 132 0 ++ rest))
  s.setFlash { s.flash with config := some (head ++ sig ++ rest) }

/-! ### Registers that Tumbler reads -/

/-- SEC_STATE (R602). -/
def State.secState (s : State) : Word :=
  BitVec.ofNat 32 (b2n s.start.pufOk + b2n s.start.imageOk * 2 + b2n s.start.configOk * 4 + b2n s.flash.slotBad * 8
    + b2n s.start.staged * 16)

/-- FLT_REPL (R616). -/
def State.fltRepl (s : State) : Word := s.reg Reg.fltRepl

/-- The values of the measurement blocks (R600): block `k` for k from 1 to 7. -/
def State.measurement (s : State) (k : Nat) (memStatus : Word) : List Byte :=
  let w (x : Word) : List Byte := toBytes 4 x.toNat
  match k with
  | 1 => Config.romDigest
  | 2 => s.start.digest
  | 3 => toBytes 4 s.start.svn
  | 4 => cfgDigest s.flashConfig
  | 5 => toBytes 4 (cfgSeq s.flashConfig) ++ toBytes 4 (cfgOseq s.flashConfig) ++ toBytes 4 (cfgMinSvn s.flashConfig)
  | 6 =>
    ((upTo 8).flatMap (fun p => w (s.reg (Reg.silPanel p)))) ++ ((upTo 8).flatMap (fun p => w (s.reg (Reg.silPanel p + 8))))
      ++ w memStatus ++ w s.fltRepl ++ List.replicate 8 0
  | 7 => w s.strStatus ++ toBytes 4 s.flash.starts ++ toBytes 4 (cfgPolicy s.flashConfig) ++ w s.secState
  | _ => []

/-- Slot 0: the chain of R592 followed by the attestation certificate (R599). -/
def State.slot0 (s : State) : List Byte :=
  ((upTo Config.certCount).flatMap Config.certBytes) ++ Config.attestCert s.start.akKey

end Sys2Proof.Machine
end

