-- ==== Sys2Proof/Machine/Start.lean ====
section
/-!
DEFINITION. Machine/Start.lean: cold starts, warm starts, attempts and escalation, and the recovery stand (R565 to R586),
with input power (R649, R650).
-/
namespace Sys2Proof.Machine

/-- Sets bit `b` of STR_EVENT. -/
def State.strEvent (s : State) (b : Nat) : State := s.setFld Reg.strEvent b 1 1

/-- STR_TIME[k] and STR_TOTAL at 0 as a start begins. -/
def State.clearTimes (s : State) : State :=
  (upTo 10).foldl (fun s k => if k = 0 then s else s.setReg (Reg.strTime k) 0) (s.setReg Reg.strTotal 0)

/-- Flash after a supply of the recovery stand has failed in pass 2 or 3: what was to be written is unusable (R580). -/
def FlashSt.spoilt (f : FlashSt) (x : RecSt) : FlashSt :=
  if x.pass < 2 then f else if x.op = 1 then { f with slotBad := true } else { f with configBad := true }

/-- Module flash after power or a start has cut off a staging or a supply: the slot is unusable (R580, R602). -/
def State.flashKept (s : State) : FlashSt :=
  let f := { s.flash with slotBad := s.flash.slotBad || s.start.staging }
  if s.start.rec_.state = 1 then f.spoilt s.start.rec_ else f

/-- MOD_ALERT_N is released as FLT_EVENT is reset (R608), and THERM_TRIP_N as the shutdown ends (R651). -/
def State.pinsReleased (s : State) : State :=
  let s := if s.asserted 2 then s.emit (.pin "MOD_ALERT_N" true) else s
  if s.flt.shutdown then s.emit (.pin "THERM_TRIP_N" true) else s

/-- Step 1 of a cold attempt resets everything but what input power and module flash hold (R570, R640). -/
def State.coldBase (s : State) : State :=
  let s := s.pinsReleased
  { State.reset with
    pending := s.pending, drawn := s.drawn, out := s.out, flash := s.flashKept
    regs := if s.reg Reg.strEvent = 0 then [] else [(Reg.strEvent, s.reg Reg.strEvent)]
    host := { ports := s.host.ports.map (fun (p : Nat × HostPort) => (p.1, { ref := p.2.ref, retraining := true })) }
    flt := { flash := s.flt.flash, flashNext := s.flt.flashNext, again := true }
    start := { input := s.start.input, sbRef := s.start.sbRef, holdover := s.start.holdover, eids := s.start.eids, i3c := s.start.i3c } }

/-- Input power is gone (R650): only module flash keeps anything. -/
def State.powerLost (s : State) : State :=
  let s := s.pinsReleased
  { State.reset with
    pending := s.pending, drawn := s.drawn, out := s.out, flash := s.flashKept
    flt := { flash := s.flt.flash, flashNext := s.flt.flashNext }
    host := { ports := s.host.ports.map (fun (p : Nat × HostPort) => (p.1, { ref := p.2.ref })) }
    start := { sbRef := s.start.sbRef } }.emit (.pin "PWR_GOOD" false)

/-! ### Cold-start steps (R568) -/

/-- Step 4: the image is verified, measured and copied to its area (R572, R594). -/
def State.takeImage (s : State) : Nat × State :=
  let b := s.flashImage
  if s.flash.slotBad || !imgOk b then (4, s)
  else
    let n := 0x1000 + num b 0x10 4
    (0, (s.poke 0xBFFC000000 (b.take n)).setStart { s.start with imageOk := true, digest := imgDigest b, svn := imgSvn b })

/-- GLB_SERIAL from the MFG section (R640). -/
def State.takeSerial (s : State) (mfg : List Byte) : State :=
  (upTo 4).foldl (fun s k => s.setReg (8 + 4 * k)
    (BitVec.ofNat 32 (ofBytes ((upTo 4).map (fun i => Config.mfgSerial mfg (4 * k + i)))))) s

/-- FAILED lanes of port `p` in the MFG and REPAIR sections. -/
def lanesOf (mfg : List Byte) (reps : List (List Byte)) (rx : Bool) (p : Nat) : BitVec 52 :=
  reps.foldl (fun m r =>
    let x := Config.repairLane r
    if Config.repairKind r = 3 ∧ x.1.val = p ∧ x.2.1 = rx then m ||| BitVec.ofNat 52 (2 ^ x.2.2.val) else m)
    (Config.mfgLanes mfg rx p)

/-- Step 5: the configuration record, MIN_SVN, the attestation key, and the lane masks (R591, R594 to R596). -/
def State.takeConfig (s : State) : Nat × State :=
  let b := s.flashConfig
  if s.flash.configBad || !cfgOk b then (5, s)
  else if s.start.svn < cfgMinSvn b then (4, s)
  else
    let mfg := cfgMfg b
    let s := s.takeSerial mfg
    let s := s.setStart { s.start with configOk := true, akKey := attestKey s.start.digest (cfgDigest b) }
    let s := (s.setReg Reg.secCfg (BitVec.ofNat 32 (cfgSeq b))).setReg Reg.secSvn (BitVec.ofNat 32 s.start.svn)
    let s := s.setReg Reg.secLock (BitVec.ofNat 32 (1 + b2n (!(cfgPolicy b).testBit 1) * 2))
    (0, (upTo 6).foldl (fun s p =>
      let tx := lanesOf mfg (cfgRepairs b) false p
      let rx := lanesOf mfg (cfgRepairs b) true p
      let s := s.setPort p { s.port p with txFailed := tx, rxForce := rx }
      if tx = 0 ∧ rx = 0 then s else s.replace 3) s)

/-- Lines that step 2 or 5 of R354 finds failed. -/
def State.failedLines (s : State) (a : Attempt) : List (Nat × Nat) :=
  let b := s.flashConfig
  let mfg := (upTo 1024).flatMap (fun c => ((upTo 35).filter (fun l => Config.mfgLine (cfgMfg b) c l)).map (fun l => (c, l)))
  let reps := ((cfgRepairs b).filter (fun r => Config.repairKind r == 2)).map
    (fun r => ((Config.repairLine r).1.val, (Config.repairLine r).2.val))
  (mfg ++ reps ++ a.lines.map (fun x => (x.1.val, x.2.val))).eraseDups

/-- Step 7: HBM training (R354). -/
def State.trainHbm (s : State) (a : Attempt) (ms : Nat) : Nat × State :=
  let s := (s.failedLines a).foldl (fun s x => s.failLine x.1 x.2) s
  let s := s.setMc { s.mc with training := [] }
  let s := (upTo 32).foldl (fun s k =>
    (s.setFld (Reg.memStk k) 0 3 (if (a.badStk.map (·.val)).contains k then 4 else 2)).setReg (Reg.memStk k + 4)
      (BitVec.ofNat 32 (ms % 2 ^ 16))) s
  (if a.badStk.isEmpty then 0 else 6, s)

/-- Physical cores out of service at a cold start (R569): by the MFG section, by a repair record, or by the self-test. -/
def State.coresOut (s : State) (a : Attempt) : List Nat :=
  let b := s.flashConfig
  (upTo 136).filter (fun i =>
    Config.mfgFailed (cfgMfg b) (i / 17) (i % 17) || (a.bad.map (·.val)).contains i
      || (cfgRepairs b).any (fun r => Config.repairKind r == 1 && (Config.repairCore r).val == i))

/-- The spare map (R569): slot s of a panel on its s-th position other than the spare. -/
def State.spareMap (s : State) (p : Nat) : State :=
  let sp := (Config.mfgSpare (cfgMfg s.flashConfig) p).val
  let s := (s.setFld (Reg.silPanel p) 2 5 sp).setFld (Reg.silPanel p) 12 5 sp
  if sp = 16 then s
  else
    (upTo 16).foldl (fun s k =>
      { s with coreMap := s.coreMap.put (16 * p + k) (some (17 * p + (if k < sp then k else k + 1))) }) s

/-- Core `i` does not come into service (R538, R539, R569): the spare takes its slot, or the slot is absent. -/
def State.bootOut (s : State) (i : Nat) : State :=
  let p := i / 17
  let s := (s.setFld (Reg.silPanel p + 8) (i % 17) 1 1).raise 3 5
  let s := match s.logOf i with
    | some l =>
      { s with coreMap := s.coreMap.put l (s.spareOf p) }.setFld (Reg.silPanel p) 2 5 0x1F
    | none => if s.spareOf p = some i then s.setFld (Reg.silPanel p) 2 5 0x1F else s
  let st := min 3 (s.outCount p)
  let s := (s.setFld (Reg.silPanel p) 0 2 st).raise 3 6
  let s := (s.fault 0x0E (if st = 3 then 4 else 3) st i 0).replace 1
  if st = 2 then s.replace 4 else if st = 3 then s.replace 5 else s

/-- Whether a panel is DEAD. -/
def State.someDead (s : State) : Bool := (upTo 8).any (fun p => s.fld (Reg.silPanel p) 0 2 == 3)

/-- Step 8: the full self-test (R569). -/
def State.testCores (s : State) (a : Attempt) : Nat × State :=
  let s := (upTo 8).foldl (fun s p => s.spareMap p) s
  let s := (s.coresOut a).foldl (fun s i => s.bootOut i) s
  let s := s.setTurn { s.turn with capCount := s.presentCores }
  (if s.someDead then 7 else 0, s)

/-- What step `k` of a cold start does: a cause of STR_STATUS, 0 when the step completes. -/
def State.coldStep (s : State) (k : Nat) (a : Attempt) (ms : Nat) : Nat × State :=
  if k = 1 then (0, s.emit (.pin "PWR_GOOD" true))
  else if k = 3 then (0, s.setStart { s.start with pufOk := true })
  else if k = 4 then s.takeImage
  else if k = 5 then s.takeConfig
  else if k = 7 then s.trainHbm a ms
  else if k = 8 then s.testCores a
  else (0, s)

/-! ### Warm-start steps (R573 to R576) -/

/-- Quiesce (R574): rings are read no more, commands stop without records, writes in flight complete, links go down. -/
def State.quiesce (s : State) : State :=
  let qs := s.host.queues.map (·.1)
  let s := qs.foldl (fun s q => s.resetQueue q) s
  let s := s.turn.progs.foldl (fun s x => match s.prog? x.1 with
    | some p => s.stopProg x.1 p
    | none => s) s
  let s := (upTo 128).foldl (fun s l => s.abortWhere l 0xA2 (fun _ => true)) s
  let s := s.mc.reqs.foldl (fun s c => c.2.foldl (fun s r => match r.op with
    | .storeUncached _ _ => s.serve r []
    | .amo _ _ _ _ _ => s.serve r []
    | _ => s) s) s
  let s := s.setMc { s.mc with reqs := [] }
  (upTo 6).foldl (fun s p => s.linkDown p 5) s

/-- Dirty panel-cache lines are written back, and the caches are empty (R574). -/
def State.flushPanels (s : State) : State :=
  { (s.pcache.foldl (fun s x => s.writeBack x.1) s) with pcache := [] }

/-- A thread after a warm start: OFF, with contents that nothing defines (R576). -/
def freshThread (n : Nat) : Thread := { free := some n, preds := Config.freeValue 8 n }

/-- Cores are reset (R576): contents undefined. -/
def State.resetCores (s : State) : State :=
  let s := (upTo 136).foldl (fun s i => s.openPhys i {}) s
  let d := s.drawn
  let core (l : Nat) : Nat × LCore := (l, { threads := (upTo 8).map (fun t => (t, freshThread (d + 32 * (8 * l + t)))) })
  { s with drawn := d + 32 * 1024, log := (upTo 128).map core, pre := [], pcache := [], reds := [] }

/-- Registers that a warm start returns to their reset values (R576): the TRN block, queues, MSI-X tables, and core windows. -/
def warmReset (off : Nat) : Bool :=
  (decide (0x10000 ≤ off) && decide (off < 0x20000)) || (decide (0x100000 ≤ off) && decide (off < 0x220000))
    || decide (0x1000000 ≤ off) || off == Reg.seqCtl

/-- Step 3 of a warm start: the panel logic is reset; Tumbler restarts (R573, R576, R605). -/
def State.resetPanels (s : State) : State :=
  let s := s.resetCores
  { s with
    regs := s.regs.filter (fun (r : Nat × Word) => !warmReset r.1)
    latch := { s.latch with pend := [], tick := 0, arrived := [], writes := [] }
    turn := { capCount := s.presentCores }
    host := { s.host with
      ports := s.host.ports.map (fun (p : Nat × HostPort) => (p.1, { p.2 with
        wbase := 0, funcMask := false, d3hot := false, link := false, retraining := true }))
      queues := [], reads := [], lastServed := [] }
    mc := { s.mc with openRow := [], training := [] }
    start := { s.start with spdm := [], mbx := [], staging := false }
    flash := s.flashKept }

/-- State of every stack in MEM_STK_STATUS. -/
def State.stacksAre (s : State) (st : Nat) : State := (upTo 32).foldl (fun s k => s.setFld (Reg.memStk k) 0 3 st) s

/-- Step 5: the image area is measured again (R573). -/
def State.remeasure (s : State) : Nat × State :=
  let n := 0x1000 + s.peekN 0xBFFC000010 4
  let bad := decide (n > 64 * 1024 * 1024) || s.poison.any (fun b => decide (0xBFFC000000 / 64 ≤ b.1) && decide (b.1 < (0xBFFC000000 + n) / 64))
  if !bad && sha512 (s.peek 0xBFFC000000 n) == s.start.digest then (0, s.setStart { s.start with imageOk := true }) else (10, s)

/-- Step 6: the enabled ports begin to relock (R413, R573). -/
def State.relock (s : State) : State :=
  (upTo 6).foldl (fun s p =>
    let q := s.port p
    if s.fld (lnkBase p) 0 1 = 1 ∧ (q.st = .down ∨ q.st = .seek ∨ q.st = .train ∨ q.st = .cal) then s.setPort p { q with st := .seek } else s) s

/-- A panel's self-test is abandoned: the core under test is the spare. -/
def State.endTests (s : State) : State :=
  let s := s.sill.spares.foldl (fun s x => match x.2.work with
    | .test q => if s.fld (Reg.silPanel x.1) 2 5 = 0x1F ∧ (s.logOf (17 * x.1 + q)).isNone then s.setFld (Reg.silPanel x.1) 2 5 q else s
    | _ => s) s
  (upTo 8).foldl (fun s p => s.setFld (Reg.silPanel p) 7 5 0x1F) (s.setSill { s.sill with spares := [] })

/-- Step 7: the short self-test (R573, R538). -/
def State.shortTest (s : State) (a : Attempt) : Nat × State :=
  let s := a.bad.foldl (fun s i => s.outOfService i.val) s.endTests.leaveAll
  let s := s.setTurn { s.turn with capCount := s.presentCores }
  (if s.someDead then 7 else 0, s)

/-- Pages of pool `p` (R576). -/
def State.settlePages (s : State) (p : Nat) : State :=
  let s := (s.pool p).pages.foldl (fun s k =>
    let s := s.unspill p k
    if s.pageState p k = 5 then (s.freeFrame p (s.rec_ (s.pd p k + 8) 0 32)).setPageState p k 4 else s) s
  s.setPool p { s.pool p with returns := [], acked := [], landed := [], budget := [], closers := [] }

/-- Sequence entries (R576): ACTIVE becomes FAULTED (R488), RETIRING becomes FREE. -/
def State.settleSeqs (s : State) : State :=
  let es := (s.mem.filter (fun c => decide (0xF001000000 ≤ c.1) && decide (c.1 < 0xF001800000) && c.1 % 32 == 0)).map
    (fun c => (c.1 - 0xF001000000) / 32)
  let s := es.foldl (fun s i =>
    if s.sf i 0 0 3 = 1 then s.seqFault i else if s.sf i 0 0 3 = 2 then s.setSf i 0 0 3 0 else s) s
  s.setSeq {}

/-- Step 8: the dispositions of R576. -/
def State.dispose (s : State) : State :=
  let s := s.setSill { s.sill with retired := [], outcomes := [], lost := [], prov := [], redo := [], eligible := [], due := [] }
  let s := s.setMsg { s.msg with ctxs := [], tombs := [], dead := [], denied := [], reads := [], out := [], charged := [], vc2 := [] }
  let s := (upTo 16).foldl (fun s r => s.passFail r 6) s
  let s := (upTo 64).foldl (fun s g => s.endGroup g 0xD4) s
  let s := { s with groups := { s.groups with insts := [], ahead := [] } }
  let s := (upTo 16).foldl (fun s j =>
    if s.stepState j = 1 then (s.setRec (stepRec j) 0 3 0).setSill { s.sill with steps := s.sill.steps.drop j }
    else if s.stepState j = 2 then s.enterDoubt j else s) s
  let s := (upTo 4).foldl (fun s i =>
    let x := s.shutter i
    let s := if s.shutState i = 2 then (s.setBank i x.bank 0).setRec (shutRec i) 0 2 1 else s
    s.setShut i { x with caps := [], readers := [] }) s
  ((upTo 16).foldl (fun s p => s.settlePages p) s).settleSeqs

/-- What step `k` of a warm start does. -/
def State.warmStep (s : State) (k : Nat) (a : Attempt) : Nat × State :=
  if k = 1 then (0, s.quiesce)
  else if k = 2 then (0, s.flushPanels.stacksAre 3)
  else if k = 3 then (0, s.resetPanels)
  else if k = 4 then
    let s := s.stacksAre 2
    match a.badStk.map (·.val) with
    | [] => (0, s)
    | x :: r => (8, s.setStart { s.start with badStack := r.foldl min x })
  else if k = 5 then s.remeasure
  else if k = 6 then (0, s.relock)
  else if k = 7 then s.shortTest a
  else (0, s.dispose)

/-! ### Attempts (R567, R577) -/

/-- The maximum times of R568 and R573, in ms. -/
def coldMax : List Nat := [300, 200, 200, 2000, 200, 500, 1500, 3800, 300]
def warmMax : List Nat := [50, 50, 50, 60, 120, 150, 80, 40]

/-- The cause of a step that fails by itself. -/
def stepCause (warm : Bool) (k : Nat) : Nat :=
  if warm then ([9, 9, 9, 6, 9, 9, 7, 9] : List Nat).getD (k - 1) 9
  else ([1, 2, 3, 4, 5, 9, 6, 7, 9] : List Nat).getD (k - 1) 9

/-- How an attempt ends: every step completed, a step failed with a cause, or a step is still in progress. -/
inductive AttemptEnd where
  | complete
  | failed (step cause : Nat)
  | going
  deriving DecidableEq, Repr

/-- Time passes while a start runs: milliseconds. -/
def State.passMs (s : State) (k ms : Nat) : State :=
  { s.placeDue with now4 := s.now4 + 4000000 * ms }.setReg (Reg.strTime k) (BitVec.ofNat 32 (ms % 2 ^ 16))

/-- Runs the steps `ks` of an attempt, in order. -/
def State.runSteps (warm : Bool) (a : Attempt) : List Nat → State → State × AttemptEnd
  | [], s => (s, .complete)
  | k :: ks, s =>
    let s := s.setStart { s.start with step := k }
    let limit := (if warm then warmMax else coldMax).getD (k - 1) 0
    match a.stop.filter (fun x => x.1.val + 1 == k) with
    | some (_, false) => (s, .going)
    | some (_, true) => (s, .failed k (stepCause warm k))
    | none =>
      let ms := ((a.ms[k - 1]?).map (·.toNat)).getD ((s.draw 16).toNat % (limit + 1))
      let s := if (a.ms[k - 1]?).isNone then s.drew else s
      if ms > limit then (s.passMs k limit, .failed k 9)
      else
        let (c, s) := if warm then s.warmStep k a else s.coldStep k a ms
        let s := s.passMs k ms
        if c = 0 then State.runSteps warm a ks s else (s, .failed k c)

/-- Records a failed step (R567). -/
def State.startFails (s : State) (k c : Nat) : State :=
  ((s.setFlash { s.flash with cause := c, failStep := k }).strEvent 1).fault 0x10 2 c k 0

/-- The recovery stand (R579). -/
def State.recoveryStand (s : State) : State :=
  let s := s.coldBase
  let s := s.setStart { s.start with kind := 2, step := s.flash.failStep }
  (s.strEvent 3).fault 0x10 4 s.flash.cause s.flash.failStep 0

/-- An attempt of a kind begins: STR_STATUS, times, and for a cold one everything reset. -/
def State.beginAttempt (s : State) (warm : Bool) : State :=
  let s := if warm then s
    else s.coldBase
  (s.setStart { s.start with kind := b2n warm, step := 0, ready := false, busy := true, dieOff := false, badStack := 0 }).clearTimes

/-- Sum of STR_TIME. -/
def State.totalMs (s : State) : Nat := (upTo 10).foldl (fun a k => if k = 0 then a else a + (s.reg (Reg.strTime k)).toNat) 0

/-- Ready is signalled (R570, R577). -/
def State.becomeReady (s : State) (links : List (Fin 2)) : State :=
  let s := s.setFlash { s.flash with warmFails := 0, coldFails := 0, starts := satAdd 32 s.flash.starts 1 }
  let s := s.setStart { s.start with ready := true, busy := false }
  let s := (s.setReg Reg.strTotal (BitVec.ofNat 32 (s.totalMs % 2 ^ 16))).strEvent 0
  links.foldl (fun s p =>
    (s.setHport p.val { s.hport p.val with link := true, retraining := false }).emit (.readiness p.val false)) s

/-- The pseudocode of R577. `fuel` bounds the attempts: after at most three warm ones a cold start is chosen, and a failed
cold one waits for its 500 ms without die power. -/
def State.startFrom : Nat → Bool → List Attempt → State → State
  | 0, _, _, s => s.recoveryStand
  | fuel + 1, warm, as, s =>
    let up := warm && decide (s.flash.warmFails ≥ 3)
    let s := if up then (s.setFlash { s.flash with warmFails := 0 }).strEvent 2 else s
    let warm := warm && !up
    if !warm && decide (s.flash.coldFails ≥ 3) then s.recoveryStand
    else
      let f := s.flash
      let s := s.setFlash (if warm then { f with warmFails := f.warmFails + 1 } else { f with coldFails := f.coldFails + 1 })
      let a := as.headD (Config.freeAttempt s.drawn)
      let s := if as.isEmpty then s.drew else s
      if a.flashBad then s.recoveryStand
      else
        match State.runSteps warm a ((upTo (if warm then 8 else 9)).map (· + 1)) (s.beginAttempt warm) with
        | (s, .complete) => s.becomeReady a.links
        | (s, .going) => s
        | (s, .failed k c) =>
          let s := s.startFails k c
          if warm then State.startFrom fuel true as.tail s
          else s.setStart { s.start with dieOff := true }

/-- A start of a kind is requested (R577). -/
def State.requestStart (s : State) (warm : Bool) (as : List Attempt) : State := State.startFrom 8 warm as s

/-! ### Input power (R649, R650) -/

/-- INPUT_GOOD (R565, R649): the switch closes and a cold start runs. Without the selected reference the clock generator runs
on its holdover oscillator (R654). -/
def execInputGood (h0Ref sbRef : Bool) (as : List Attempt) (s : State) : Host.Outcome State Fault Refusal :=
  if s.start.input then .next s
  else
    let s := s.setHport 0 { s.hport 0 with ref := h0Ref }
    .next ((s.setStart { s.start with input := true, sbRef := sbRef, holdover := !h0Ref }).requestStart false as)

/-- PWR_EN_LOW (R650). -/
def execPwrEnLow (s : State) : Host.Outcome State Fault Refusal := .next (if s.start.input then s.powerLost else s)

/-- INPUT_UNDERVOLTAGE (R583, R650). -/
def execInputUndervoltage (s : State) : Host.Outcome State Fault Refusal := .next (if s.start.input then s.powerLost else s)

/-! ### Requests (R565, R566) -/

/-- A warm request is taken only from a module that is ready and not shut down: during a start it is ignored (R566). -/
def State.warmRequest (s : State) (as : List Attempt) : State :=
  if s.start.ready ∧ s.flt.shutdown = false then s.requestStart true as else s

/-- Whether some sensor is fatal (R615). -/
def State.someFatal (s : State) : Bool := (upTo 28).any (fun i => s.fld (Reg.fltSensor (i + 1)) 20 3 == 3)

/-- A cold request: ignored during a start (R566) and in the recovery stand, refused while a sensor is fatal (R615). -/
def State.coldRequest (s : State) (as : List Attempt) : State :=
  if (s.start.ready ∨ s.flt.shutdown = true) ∧ s.someFatal = false then s.requestStart false as else s

/-- MOD_RESET_PULSE (R565, R583). -/
def execModResetPulse (as : List Attempt) (s : State) : Host.Outcome State Fault Refusal := .next (s.warmRequest as)

/-- START_STEP_TIMEOUT (R567): the step in progress runs past its maximum time. -/
def execStartStepTimeout (as : List Attempt) (s : State) : Host.Outcome State Fault Refusal :=
  if !s.start.busy || s.start.dieOff then .next s
  else
    let warm := s.start.kind == 1
    let s := s.startFails s.start.step 9
    .next (if warm then s.requestStart true as else s.setStart { s.start with dieOff := true })

/-- COLD_RETRY_DELAY (R577): the next cold attempt begins. -/
def execColdRetryDelay (as : List Attempt) (s : State) : Host.Outcome State Fault Refusal :=
  .next (if s.start.dieOff then s.requestStart false as else s)

/-- Whether a host may restart the module: no VALID partition is assigned to the other host (R566). -/
def State.mayRestart (s : State) (r : Requester) : Bool :=
  match r with
  | .joinery => true
  | .tumbler => false
  | .h0 => (upTo 16).all (fun p => s.partHost p != 2)
  | .h1 => (upTo 16).all (fun p => s.partHost p != 1)

/-- A write of STR_RESTART_C (R565, R566): the pair completes and its KIND requests a start. -/
def State.restartPair (s : State) (r : Requester) (c : Word) (as : List Attempt) : State :=
  match s.dbComplement r .strRestart c with
  | (none, s) => s
  | (some v, s) =>
    if !s.mayRestart r then (s.dbFail (DbReg.strRestart.off + 4) 5 r).strEvent 4
    else if bits v 0 2 = 1 then s.warmRequest as
    else if bits v 0 2 = 2 then s.coldRequest as
    else s

/-- WARM_RESTART_REQUEST (R565). -/
def execWarmRestartRequest (r : Requester) (c : Word) (as : List Attempt) (s : State) : Host.Outcome State Fault Refusal :=
  .next (s.restartPair r c as)

/-- COLD_RESTART_REQUEST (R565). -/
def execColdRestartRequest (r : Requester) (c : Word) (as : List Attempt) (s : State) : Host.Outcome State Fault Refusal :=
  .next (s.restartPair r c as)

/-! ### The recovery stand (R580, R581) -/

def State.setRecSt (s : State) (x : RecSt) : State := s.setStart { s.start with rec_ := x }

/-- A supply fails with an ERR code. -/
def State.recFails (s : State) (err : Nat) : State :=
  let x := s.start.rec_
  (s.setFlash (s.flash.spoilt x)).setRecSt { x with state := 3, err := err, got := [] }

/-- Reads piece `k` of the supply from the host. -/
def State.recRead4k (s : State) (k : Nat) : State :=
  let x := s.start.rec_
  let id := s.host.nextRead
  (s.setHost { s.host with
    reads := s.host.reads.put id { port := x.port, addr := x.addr + 4096 * k, len := 4096, use := .recovery k }, nextRead := id + 1 }).emit
    (.hostRead x.port id (x.addr + 4096 * k) 4096)

/-- The OWNER section of a supplied record, when it carries exactly one and its header is in form (R598). -/
def supplied (b : List Byte) : Option Sect :=
  if cut b 0 4 == [0x4C, 0x5A, 0x38, 0x43] && decide (num b 8 4 ≤ b.length) then
    match (cfgSections b).filter (fun x => x.type == 2) with
    | [x] => some x
    | _ => none
  else none

/-- Whether a supplied OWNER section is accepted (R595, R598): signed with the present owner's key, or with the manufacturing
key when there is none, and of a higher OSEQ. -/
def State.ownerOk (s : State) (x : Sect) : Bool :=
  let b := s.flashConfig
  let key := match cfgOwner b with
    | some o => Config.keyOf (cut o.body 0 133)
    | none => Config.mfgKey
  Config.verifies key (sha512 x.all) x.sig && decide (x.oseq > cfgOseq b || (cfgOwner b).isNone)

/-- The ERR code of a supply in pass 1 (R580): 0 when it verifies. -/
def State.recCheck (s : State) (op : Nat) (b : List Byte) : Nat :=
  if op = 1 then (if !imgHeaderOk b then 5 else if imgSigned b then 0 else 3)
  else match supplied b with
    | none => 5
    | some x => if s.ownerOk x then 0 else 3

/-- Passes 2 and 3 of a supply: flash is programmed and read back. -/
def State.program (s : State) (op : Nat) (b : List Byte) : State :=
  if op = 1 then s.setFlash { s.flash with image := some b, slotBad := false }
  else match supplied b with
    | none => s
    | some x =>
      let ss := cfgGood s.flashConfig
      (s.setFlash { s.flash with configBad := false }).writeConfig ((ss.filter (·.type == 1)) ++ [x] ++ (ss.filter (·.type == 3))) (ss.countP (·.type == 3))

/-- A pass has read the whole supply. -/
def State.recPass (s : State) (b : List Byte) : State :=
  let x := s.start.rec_
  if x.pass = 1 then
    let e := s.recCheck x.op b
    if e ≠ 0 then s.recFails e else (s.setRecSt { x with pass := 2, first := b, got := [] }).recRead4k 0
  else
    -- pass 3 finds the flash good when both readings agree and its programming succeeded, which is open
    let good := (s.draw 1).toNat == 1 && b == x.first
    let s := s.drew
    if !good then (s.setRecSt { x with pass := 3 }).recFails 4
    else
      let s := (s.setRecSt { x with state := 2, pass := 3, got := [] }).program x.op b
      (s.setFlash { s.flash with warmFails := 0, coldFails := 0 }).requestStart false []

/-- Piece `k` of a supply arrives, or its read fails (R580). -/
def State.recArrive (s : State) (k : Nat) (data : Option (List Byte)) : State :=
  let x := s.start.rec_
  if s.start.kind ≠ 2 ∨ x.state ≠ 1 then s
  else match data with
    | none => s.recFails 2
    | some bs =>
      let x := { x with got := x.got.put k bs }
      let s := s.setRecSt x
      if x.got.length < x.len / 4096 then s.recRead4k (k + 1) else s.recPass (x.got.flatMap (·.2))

/-- A write of REC_CMD through port `p` that is accepted (R580). -/
def State.recTakes (s : State) : Bool := s.start.kind == 2 && !s.start.busy && s.start.rec_.state != 1

/-- OP 1 or OP 2: the supply begins. -/
def State.recLoad (s : State) (p op : Nat) : State :=
  if !s.recTakes then s
  else
    let n := (s.reg Reg.recLen).toNat
    let x : RecSt := { state := 1, pass := 1, op := op, port := p
                       addr := (s.reg Reg.recAddrLo).toNat + 2 ^ 32 * (s.reg Reg.recAddrHi).toNat, len := n }
    let s := s.setRecSt x
    if n = 0 ∨ n % 4096 ≠ 0 ∨ n / 4096 > (if op = 1 then 16384 else 256) then s.recFails 1 else s.recRead4k 0

/-- LOAD_JOINERY_IMAGE (R580). -/
def execLoadJoineryImage (p : Fin 2) (s : State) : Host.Outcome State Fault Refusal := .next (s.recLoad p.val 1)

/-- LOAD_CONFIGURATION_RECORD (R580, R598). -/
def execLoadConfigurationRecord (p : Fin 2) (s : State) : Host.Outcome State Fault Refusal := .next (s.recLoad p.val 2)

/-- REC_COLD_START (R581): COLD_FAILS is 2, so that a further failure returns to the stand. -/
def execRecColdStart (_ : Fin 2) (as : List Attempt) (s : State) : Host.Outcome State Fault Refusal :=
  .next (if s.recTakes then (s.setFlash { s.flash with coldFails := 2 }).requestStart false as else s)

/-! ### Host DMA completions (R385, R387, R475) -/

/-- The read under `tag` ends, for whatever asked for it. -/
def State.readEnds (s : State) (tag : Nat) (data : Option (List Byte)) : State :=
  match s.host.reads.find? tag with
  | some x =>
    match x.use with
    | .recovery k => (s.setHost { s.host with reads := s.host.reads.drop tag }).recArrive k data
    | _ => s.hostReadEnds tag data
  | none => s

/-- HOST_DMA_COMPLETION (R385): a completion that succeeds carries the bytes that were asked for. -/
def execHostDmaCompletion (tag : Nat) (status : CplStatus) (data : List Byte) (s : State) : Host.Outcome State Fault Refusal :=
  match s.host.reads.find? tag with
  | none => .next s
  | some x =>
    if status = .retry ∨ (status = .success ∧ data.length ≠ x.len) then .next s
    else .next (s.readEnds tag (if status = .success then some data else none))

/-- COMPLETION_TIMEOUT (R475). -/
def execCompletionTimeout (tag : Nat) (s : State) : Host.Outcome State Fault Refusal := .next (s.readEnds tag none)

end Sys2Proof.Machine
end

