-- ==== Sys2Proof/Machine/Tumbler.lean ====
section
/-!
DEFINITION. Machine/Tumbler.lean: the mailboxes (R603), the requests of mailbox 0 (R597, R601, R604), and the SPDM responder
(R599, R600).
-/
namespace Sys2Proof.Machine

/-! ### Computed status -/

/-- Pseudo-channels in state `st` or beyond, stopping at 255. -/
def State.pcsIn (s : State) (st : Nat) : Nat := min 255 ((upTo 1024).filter (fun c => decide (s.pcState c ≥ st))).length

/-- Every stack is trained or out of self-refresh. -/
def State.memReady (s : State) : Bool := (upTo 32).all (fun k => s.fld (Reg.memStk k) 0 3 == 2)

/-- MEM_STATUS (R365). -/
def State.memStatus (s : State) : Word :=
  BitVec.ofNat 32 (b2n s.memReady + b2n (decide (s.shareSum > 1024)) * 2 + b2n (s.memReady && s.fld Reg.memScrub 0 1 == 1) * 4
    + s.pcsIn 1 * 2 ^ 8 + s.pcsIn 2 * 2 ^ 16 + s.pcsIn 3 * 2 ^ 24)

/-! ### Mailboxes (R603) -/

def State.mailbox (s : State) (k : Nat) : Mbx := s.start.mbx.get {} k
def State.setMailbox (s : State) (k : Nat) (x : Mbx) : State := s.setStart { s.start with mbx := s.start.mbx.put k x }

/-- The two parties of a mailbox; the first one sends requests. -/
def mbxAsks (k : Nat) : Requester := if k = 0 then .joinery else if k = 1 then .h0 else .h1
def mbxServes (k : Nat) : Requester := if k = 0 then .tumbler else .joinery
def State.reachesMbx (s : State) (r : Requester) (k : Nat) : Bool := s.hears r && (r == mbxAsks k || r == mbxServes k)

def State.mbxLen (s : State) (k : Nat) : Nat := min 4096 (s.fld (Reg.mbx k + 8) 0 13)
def mbxData (k : Nat) : Nat := Reg.mbx k + 0x1000

/-- The first `n` bytes of DATA. -/
def State.mbxBytes (s : State) (k n : Nat) : List Byte :=
  ((upTo ((n + 3) / 4)).flatMap (fun i => toBytes 4 (s.reg (mbxData k + 4 * i)).toNat)).take n

/-- The message in a mailbox. -/
def State.mbxMsg (s : State) (k : Nat) : List Byte := s.mbxBytes k (s.mbxLen k)

/-- Puts bytes into DATA, the rest of the last word zero, and their number into LEN. -/
def State.mbxPut (s : State) (k : Nat) (bs : List Byte) : State :=
  (upTo ((bs.length + 3) / 4)).foldl (fun s i => s.setReg (mbxData k + 4 * i) (BitVec.ofNat 32 (num bs (4 * i) 4)))
    (s.setReg (Reg.mbx k + 8) (BitVec.ofNat 32 bs.length))

/-- A mailbox is DONE with a result. -/
def State.mbxDone (s : State) (k result : Nat) : State := s.setMailbox k { st := 2, result := result }

/-- A write of GO (R603): a request of mailbox 0 that is none of R604 is answered at once. -/
def State.mbxGo (s : State) (r : Requester) (k : Nat) : State :=
  if !s.reachesMbx r k || r != mbxAsks k || (s.mailbox k).st != 0 then s
  else if k = 0 ∧ ¬ (4 ≤ s.mbxLen 0 ∧ 1 ≤ num (s.mbxMsg 0) 0 4 ∧ num (s.mbxMsg 0) 0 4 ≤ 4) then s.mbxDone 0 1
  else s.setMailbox k { s.mailbox k with st := 1 }

/-- A write of ACK (R603). -/
def State.mbxAck (s : State) (r : Requester) (k : Nat) : State :=
  if s.reachesMbx r k && r == mbxAsks k && (s.mailbox k).st == 2 then s.setMailbox k { s.mailbox k with st := 0 } else s

/-- MBX_GO (R603). -/
def execMbxGo (r : Requester) (k : Fin 3) (s : State) : Host.Outcome State Fault Refusal := .next (s.mbxGo r k.val)

/-- MBX_ACK (R603). -/
def execMbxAck (r : Requester) (k : Fin 3) (s : State) : Host.Outcome State Fault Refusal := .next (s.mbxAck r k.val)

/-- The request that waits in mailbox 0, when its OP is `op`. -/
def State.asked (s : State) (op : Nat) : Option (List Byte) :=
  let b := s.mbxMsg 0
  if (s.mailbox 0).st == 1 && num b 0 4 == op then some b else none

/-- The module serial number. -/
def State.serial (s : State) : List Byte := (upTo 4).flatMap (fun k => toBytes 4 (s.reg (8 + 4 * k)).toNat)

/-- Bytes 0x000 to 0x2FF of a report (R601). -/
def State.reportBody (s : State) (nonce : List Byte) : List Byte :=
  [0x4C, 0x5A, 0x38, 0x52] ++ toBytes 4 1 ++ s.serial ++ nonce ++ toBytes 8 s.time
    ++ (upTo 7).flatMap (fun k => sha512 (s.measurement (k + 1) s.memStatus))
    ++ sha512 (Config.publicKey s.start.akKey) ++ List.replicate 192 0

/-- REPORT (R601, R604). -/
def execReport (s : State) : Host.Outcome State Fault Refusal :=
  match s.asked 1 with
  | none => .next s
  | some b =>
    if b.length < 36 then .next (s.mbxDone 0 1)
    else
      let body := s.reportBody (cut b 4 32)
      let (sig, s) := s.sign s.start.akKey (sha512 body)
      .next ((s.mbxPut 0 (body ++ sig ++ List.replicate 124 0)).mbxDone 0 0)

/-- The REPAIR section of a request (R595, R597): KIND and location as given, and a timestamp. -/
def State.repairSect (s : State) (req : List Byte) : Sect × State :=
  let body := req ++ toBytes 8 s.time
  let all := toBytes 2 3 ++ toBytes 2 0 ++ toBytes 4 body.length ++ body
  let (sig, s) := s.sign identityKey (sha512 all)
  ({ type := 3, oseq := 0, body := body, sig := sig, all := all }, s)

/-- REPAIR (R597, R604). -/
def execRepair (flashOk : Bool) (s : State) : Host.Outcome State Fault Refusal :=
  match s.asked 2 with
  | none => .next s
  | some b =>
    let kind := num b 4 1
    if b.length < 5 ∨ kind = 0 ∨ kind > 3 then .next (s.mbxDone 0 1)
    else
      let ss := cfgGood s.flashConfig
      let n := ss.countP (·.type == 3)
      if n ≥ 1024 then .next (s.mbxDone 0 4)
      else if !flashOk then .next (s.mbxDone 0 3)
      else
        let (x, s) := s.repairSect (b.drop 4)
        let s := s.writeConfig (ss ++ [x]) (n + 1)
        .next ((s.setReg Reg.secCfg (BitVec.ofNat 32 (cfgSeq s.flashConfig))).mbxDone 0 0)

/-- Whether bytes of HBM lie in ranges that no partition owns. -/
def State.unowned (s : State) (a n : Nat) : Bool :=
  decide (a + n ≤ hbmEnd) && (upTo ((a + n - 1) / 2 ^ 30 - a / 2 ^ 30 + 1)).all (fun i => (s.rangeOwner ((a / 2 ^ 30 + i) * 2 ^ 30)).isNone)

/-- The result of pass 1 of a staging (R594, R604). -/
def State.stageCheck (s : State) (b : List Byte) : Nat :=
  if !imgHeaderOk b then 1 else if !imgSigned b then 2 else if imgSvn b < cfgMinSvn s.flashConfig then 5 else 0

/-- STAGE_IMAGE (R604, R605): pass 1 verifies the image in HBM; passes 2 and 3 program flash and read it back. -/
def execStageImage (flashOk cut_ : Bool) (s : State) : Host.Outcome State Fault Refusal :=
  match s.asked 3 with
  | none => .next s
  | some b =>
    let a := num b 4 8
    let n := num b 12 4
    if b.length < 16 ∨ n = 0 ∨ n / 4096 > 16384 ∨ s.unowned a n = false ∨ s.flt.shutdown = true then .next (s.mbxDone 0 1)
    else
      let m := s.readHbm none a n
      let s := m.st
      let e := if m.bad then 1 else s.stageCheck m.bytes
      if e ≠ 0 then .next (s.mbxDone 0 e)
      else if cut_ then .next (s.setStart { s.start with staging := true })
      else
        let s := s.setStart { s.start with staging := false }
        if !flashOk then .next ((s.setFlash { s.flash with slotBad := true }).mbxDone 0 3)
        else
          let s := s.setFlash { s.flash with image := some m.bytes, slotBad := false }
          .next ((s.setStart { s.start with staged := true }).mbxDone 0 0)

/-- GET_CERT (R604). -/
def execGetCert (s : State) : Host.Outcome State Fault Refusal :=
  match s.asked 4 with
  | none => .next s
  | some b =>
    let off := num b 4 4
    let n := num b 8 4
    if b.length < 12 ∨ n > 4096 ∨ off + n > s.slot0.length then .next (s.mbxDone 0 1)
    else .next ((s.mbxPut 0 (cut s.slot0 off n)).mbxDone 0 0)

/-! ### SPDM (R599, R600) -/

/-- Tumbler runs: die power is on and its boot ROM has started. -/
def State.tumblerRuns (s : State) : Bool :=
  s.start.input && !s.start.dieOff && (s.start.ready || s.start.kind != 0 || decide (s.start.step ≥ 2))

/-- Whether requests on SPDM channel `c` arrive (R599, R607, R610): a DOE mailbox lies in configuration space. -/
def State.spdmOpen (s : State) (c : Nat) : Bool :=
  if c = 2 then s.tumblerRuns
  else s.portsLive && (s.start.ready || s.start.kind == 2) && (c < 2 || !(s.hport (c - 3)).d3hot)

def State.spdmAt (s : State) (c : Nat) : Nat := s.start.spdm.get 0 c

/-- Answers on channel `c`; the I3C target raises its interrupt (R608). -/
def State.spdmSay (s : State) (c : Nat) (x : SpdmReply) : State := s.emitMgmt (if c = 2 then 0 else 1) (.spdm c x)

/-- A request that needs the exchange at stage `n`. -/
def State.spdmNeeds (s : State) (c n : Nat) (go : State → State) : Host.Outcome State Fault Refusal :=
  if !s.spdmOpen c then .next s
  else if s.spdmAt c < n then .next (s.spdmSay c (.error "UnexpectedRequest"))
  else .next (go s)

def State.spdmTo (s : State) (c n : Nat) : State := s.setStart { s.start with spdm := s.start.spdm.put c n }

/-- GET_VERSION (R599): version 1.3 only; an exchange begins anew. -/
def execGetVersion (c : Fin 5) (s : State) : Host.Outcome State Fault Refusal :=
  s.spdmNeeds c.val 0 (fun s => (s.spdmTo c.val 1).spdmSay c.val (.version 1 3))

/-- GET_CAPABILITIES (R599). -/
def execGetCapabilities (c : Fin 5) (s : State) : Host.Outcome State Fault Refusal :=
  s.spdmNeeds c.val 1 (fun s => (s.spdmTo c.val 2).spdmSay c.val (.capabilities true true true))

/-- NEGOTIATE_ALGORITHMS (R599). -/
def execNegotiateAlgorithms (c : Fin 5) (s : State) : Host.Outcome State Fault Refusal :=
  s.spdmNeeds c.val 2 (fun s => (s.spdmTo c.val 3).spdmSay c.val
    (.algorithms "TPM_ALG_ECDSA_ECC_NIST_P521" "TPM_ALG_SHA_512" "TPM_ALG_SHA_512"))

/-- GET_DIGESTS (R599): slot 0 alone holds a chain. -/
def execGetDigests (c : Fin 5) (s : State) : Host.Outcome State Fault Refusal :=
  s.spdmNeeds c.val 3 (fun s => s.spdmSay c.val (.digests 1 (sha512 s.slot0)))

/-- GET_CERTIFICATE (R599). -/
def execGetCertificate (c : Fin 5) (slot : Fin 8) (off len : BitVec 16) (s : State) : Host.Outcome State Fault Refusal :=
  s.spdmNeeds c.val 3 (fun s =>
    let b := s.slot0
    if slot.val ≠ 0 ∨ off.toNat ≥ b.length then s.spdmSay c.val (.error "InvalidRequest")
    else
      let part := cut b off.toNat len.toNat
      s.spdmSay c.val (.certificate 0 part (b.length - off.toNat - part.length)))

/-- Signs an SPDM response with the attestation key: what is signed is laid down in the SPDM standard. -/
def State.spdmSign (s : State) : List Byte × State :=
  let d := s.drawn
  s.drew.sign s.start.akKey ((upTo 64).map (Config.freeByte d))

/-- CHALLENGE (R599). -/
def execChallenge (c : Fin 5) (slot : Fin 8) (_ : BitVec 256) (s : State) : Host.Outcome State Fault Refusal :=
  s.spdmNeeds c.val 3 (fun s =>
    if slot.val ≠ 0 then s.spdmSay c.val (.error "InvalidRequest")
    else
      let own := (upTo 32).map (Config.freeByte s.drawn)
      let (sig, s) := s.drew.spdmSign
      s.spdmSay c.val (.challenge own (sha512 s.slot0) sig))

/-- Block `k` of the measurements: index, value type, form, value (R600). -/
def State.measBlock (s : State) (k : Nat) : Nat × Nat × Bool × List Byte :=
  (k, ([0x00, 0x01, 0x07, 0x03, 0x03, 0x02, 0x05] : List Nat).getD (k - 1) 0, [1, 2, 4].contains k, s.measurement k s.memStatus)

/-- GET_MEASUREMENTS (R600): one block, or all with index 0xFF. -/
def execGetMeasurements (c : Fin 5) (index : Byte) (signed : Bool) (_ : BitVec 256) (s : State) : Host.Outcome State Fault Refusal :=
  s.spdmNeeds c.val 3 (fun s =>
    let k := index.toNat
    if 8 ≤ k ∧ k ≠ 255 then s.spdmSay c.val (.error "InvalidRequest")
    else
      let ks := if k = 255 then [1, 2, 3, 4, 5, 6, 7] else if k = 0 then [] else [k]
      let blocks := ks.map s.measBlock
      let (sig, s) := if signed then s.spdmSign else ([], s)
      s.spdmSay c.val (.measurements blocks sig))

/-- SPDM_UNSUPPORTED (R599): every other request. -/
def execSpdmUnsupported (c : Fin 5) (_ : Byte) (s : State) : Host.Outcome State Fault Refusal :=
  s.spdmNeeds c.val 0 (fun s => s.spdmSay c.val (.error "UnsupportedRequest"))

end Sys2Proof.Machine
end

