-- ==== Sys2Proof/Machine/Manage.lean ====
section
/-!
DEFINITION. Machine/Manage.lean: MCTP endpoints and the I3C target (R607 to R610), PLDM (R611), sensors, throttling and the
shutdown (R612 to R615), the fault record's clearing and its copy in flash (R620 to R622), and the reference clocks (R654).
-/
namespace Sys2Proof.Machine

def State.setFlt (s : State) (x : FltSt) : State := { s with flt := x }

/-- Joinery runs: not in cold-start steps 1 to 5 nor in the recovery stand (R609), nor while a warm start restarts it. -/
def State.joineryRuns (s : State) : Bool :=
  s.start.ready || s.flt.shutdown
    || (s.start.busy && !s.start.dieOff
      && (if s.start.kind = 1 then decide (s.start.step < 3) || decide (s.start.step ≥ 6) else decide (s.start.step ≥ 6)))

/-! ### MCTP control and I3C (R607, R608) -/

/-- Whether endpoint `b` hears anything: 0 I3C, 1 and 2 the host ports. -/
def State.mctpOpen (s : State) (b : Nat) : Bool :=
  if b = 0 then s.tumblerRuns else s.portsLive && (s.start.ready || s.start.kind == 2) && !(s.hport (b - 1)).d3hot

/-- SET_ENDPOINT_ID (R607): the response names the identifier that was taken. -/
def execSetEndpointId (b : Fin 3) (eid : Byte) (s : State) : Host.Outcome State Fault Refusal :=
  if !s.mctpOpen b.val then .next s
  else
    let s := s.setStart { s.start with eids := s.start.eids.put b.val eid.toNat }
    .next (s.emitMgmt b.val (.mctp b.val [eid]))

/-- MCTP_TYPE_UNSUPPORTED (R607): dropped. -/
def execMctpTypeUnsupported (_ : Fin 3) (_ : Byte) (s : State) : Host.Outcome State Fault Refusal := .next s

/-- ENTDAA (R608): a target that has no dynamic address takes one. -/
def execEntdaa (addr : BitVec 7) (s : State) : Host.Outcome State Fault Refusal :=
  .next (if s.tumblerRuns && s.start.i3c.isNone then s.setStart { s.start with i3c := some addr.toNat } else s)

/-- SETDASA (R608): from static address 0x52. -/
def execSetdasa (static addr : BitVec 7) (s : State) : Host.Outcome State Fault Refusal :=
  .next (if s.tumblerRuns && static == 0x52 && s.start.i3c.isNone then s.setStart { s.start with i3c := some addr.toNat } else s)

/-! ### PLDM (R609, R611) -/

/-- Whether a PLDM request on channel `c` arrives: on 3 and 4 it is the request that waits in mailbox 1 or 2. -/
def State.pldmOpen (s : State) (c : Nat) : Bool :=
  if c < 3 then s.mctpOpen c else (s.mailbox (c - 2)).st == 1

/-- Answers a PLDM request: a completion code and what the answer says. On a mailbox the bytes of the answer, whose layout is
DSP0248's, stand in DATA, and the mailbox is DONE. -/
def State.pldmSay (s : State) (c code : Nat) (payload : List Nat) : State :=
  let s := s.emitMgmt (if c = 0 then 0 else 1) (.pldm c code payload)
  if c < 3 then s
  else
    let k := c - 2
    let d := s.drawn
    let s := (upTo 1024).foldl (fun s i => s.setReg (mbxData k + 4 * i) (Config.freeValue 32 (d + 1 + i))) s
    let s := s.setReg (Reg.mbx k + 8) (BitVec.ofNat 32 ((Config.freeValue 16 d).toNat % 4097))
    { s with drawn := d + 1025 }.mbxDone k 0

/-- A PLDM command that Joinery serves; until it runs the answer is ERROR_NOT_READY (R609). -/
def State.pldm (s : State) (c : Nat) (go : State → State) : Host.Outcome State Fault Refusal :=
  if !s.pldmOpen c then .next s
  else if !s.joineryRuns then .next (s.pldmSay c 4 [])
  else .next (go s)

/-- An answer whose error code the spec does not state. -/
def State.pldmOdd (s : State) (c : Nat) : State := s.drew.pldmSay c (1 + (s.draw 8).toNat % 255) []

/-- An answer that succeeds, with contents that the spec does not state. -/
def State.pldmFree (s : State) (c : Nat) : State := s.drew.pldmSay c 0 [(s.draw 64).toNat]

/-- GET_TID (R611). -/
def execGetTid (c : Fin 5) (s : State) : Host.Outcome State Fault Refusal :=
  s.pldm c.val (fun s => s.pldmSay c.val 0 [s.start.tid])

/-- SET_TID (R611). -/
def execSetTid (c : Fin 5) (tid : Byte) (s : State) : Host.Outcome State Fault Refusal :=
  s.pldm c.val (fun s => (s.setStart { s.start with tid := tid.toNat }).pldmSay c.val 0 [])

/-- GET_PLDM_VERSION (R611): type 2 is at version 1.3; the other versions are not stated. -/
def execGetPldmVersion (c : Fin 5) (type : Byte) (s : State) : Host.Outcome State Fault Refusal :=
  s.pldm c.val (fun s =>
    if type = 2 then s.pldmSay c.val 0 [1, 3] else if type = 0 ∨ type = 5 then s.pldmFree c.val else s.pldmOdd c.val)

/-- GET_PLDM_TYPES (R611). -/
def execGetPldmTypes (c : Fin 5) (s : State) : Host.Outcome State Fault Refusal :=
  s.pldm c.val (fun s => s.pldmSay c.val 0 [0, 2, 5])

/-- The commands of R611 by type, with the codes of the standards it names. -/
def pldmCommands (type : Nat) : List Nat :=
  if type = 0 then [1, 2, 3, 4, 5]
  else if type = 2 then [0x04, 0x0A, 0x11, 0x12, 0x13, 0x21, 0x50, 0x51]
  else if type = 5 then [0x01, 0x02, 0x10, 0x11, 0x12, 0x13, 0x14, 0x15, 0x16, 0x17, 0x18, 0x19, 0x1A, 0x1B, 0x1C, 0x1D]
  else []

/-- GET_PLDM_COMMANDS (R611). -/
def execGetPldmCommands (c : Fin 5) (type : Byte) (s : State) : Host.Outcome State Fault Refusal :=
  s.pldm c.val (fun s =>
    match pldmCommands type.toNat with
    | [] => s.pldmOdd c.val
    | l => s.pldmSay c.val 0 l)

/-- GET_PDR (R611): what the records hold is not stated. -/
def execGetPdr (c : Fin 5) (handle : Word) (s : State) : Host.Outcome State Fault Refusal :=
  s.pldm c.val (fun s => if handle.toNat ≤ 29 then s.pldmFree c.val else s.pldmOdd c.val)

/-- GET_PDR_REPOSITORY_INFO (R611). -/
def execGetPdrRepositoryInfo (c : Fin 5) (s : State) : Host.Outcome State Fault Refusal :=
  s.pldm c.val (fun s => s.pldmFree c.val)

/-! ### Sensors (R612) -/

/-- Threshold of a sensor (1 to 28) at a level (0 warning, 1 critical, 2 fatal) and side, in 1/160 of its unit; `none` where
R612 gives none. -/
def fixedThr (sensor level : Nat) (upper : Bool) : Option Int :=
  let pick (a b c : Int) : Option Int := some (160 * (if level = 0 then a else if level = 1 then b else c))
  if sensor = 3 then
    (if upper then none else some (if level = 0 then 528 else if level = 1 then 480 else 320))
  else if sensor = 4 then (if upper then pick 57 58 60 else pick 49 48 46)
  else if !upper then none
  else if sensor = 1 then pick 38 40 45
  else if sensor = 2 then pick 55 60 65
  else if sensor = 5 then pick 3200 3400 3600
  else if 6 ≤ sensor ∧ sensor ≤ 13 then pick 95 105 110
  else if 14 ≤ sensor ∧ sensor ≤ 21 then pick 80 85 95
  else if 22 ≤ sensor ∧ sensor ≤ 27 then pick 70 75 80
  else if sensor = 28 then pick 100 115 125
  else none

/-- Hysteresis in 1/160 of the unit (R612). -/
def hysteresis (sensor : Nat) : Int :=
  if sensor = 3 then 32 else if sensor = 4 then 80 else if sensor = 5 then 8000 else 320

/-- The threshold in force: SetSensorThresholds changes warnings. -/
def State.threshold (s : State) (sensor level : Nat) (upper : Bool) : Option Int :=
  match fixedThr sensor level upper with
  | none => none
  | some t => if level = 0 then some (((s.flt.warn.find? (2 * sensor + b2n upper)).map (· * 10)).getD t) else some t

/-- Whether a level holds for reading `v` (in 1/160): tripped, or held and not yet back inside by the hysteresis. -/
def State.levelHolds (s : State) (sensor level : Nat) (held : Bool) (v : Int) : Bool :=
  let h := hysteresis sensor
  let up := match s.threshold sensor level true with
    | some t => decide (v > t) || (held && decide (v > t - h))
    | none => false
  let down := match s.threshold sensor level false with
    | some t => decide (v < t) || (held && decide (v < t + h))
    | none => false
  up || down

/-- State code of a sensor (R624): 7 before any reading. -/
def State.sensorState (s : State) (i : Nat) : Nat := s.fld (Reg.fltSensor i) 20 3

/-- The state that a reading (× 16) leads to. -/
def State.nextSensor (s : State) (i : Nat) (v : Int) : Nat :=
  let was := if s.sensorState i = 7 then 0 else s.sensorState i
  let lv (k : Nat) : Bool := s.levelHolds i k (decide (was ≥ k + 1)) (10 * v)
  if lv 2 then 3 else if lv 1 then 2 else if lv 0 then 1 else 0

/-- An entry of the fault record is copied to the ring in flash (R621). -/
def State.copyFault (s : State) (seq : Nat) : State :=
  let f := s.flt
  let s := s.setFlt { f with toCopy := f.toCopy.filter (· != seq) }
  match List.find? (fun (e : Nat × FltEntry) => e.2.seq == seq) f.entries with
  | none => s
  | some e => s.setFlt { s.flt with flash := s.flt.flash.put (f.flashNext % 32768) (e.2, false), flashNext := (f.flashNext + 1) % 32768 }

/-- The shutdown of a fatal reading (R615): quiesce, copy the fault record, and power only what R615 names. -/
def State.shutDown (s : State) : State :=
  let s := s.quiesce.placeDue
  let s := s.flt.toCopy.foldl (fun s q => s.copyFault q) s
  let s := { s with
    mem := s.mem.filter (fun c => decide (c.1 ≥ hbmEnd)), poison := [], pcache := [], phys := [], log := [], pre := [], reds := []
    ports := s.ports.map (fun (p : Nat × Port) => (p.1, { p.2 with st := .off }))
    host := { s.host with
      ports := s.host.ports.map (fun (p : Nat × HostPort) => (p.1, { p.2 with link := false })), reads := [] } }
  let s := (s.stacksAre 0).setFlt { s.flt with shutdown := true }
  let s := s.setStart { s.start with busy := false }
  (s.emit (.pin "PWR_GOOD" false)).emit (.pin "THERM_TRIP_N" false)

/-- A sensor enters a state (R613). -/
def State.sensorEnters (s : State) (i st addr : Nat) : State :=
  let s := s.raise 2 (2 + st)
  let s := s.fault 0x11 (if st = 3 then 4 else if st = 2 then 2 else 0) st i addr
  if st = 3 ∧ s.flt.shutdown = false then s.shutDown else s

/-- SENSOR_UPDATE (R612, R613). -/
def execSensorUpdate (id : Fin 28) (v : BitVec 20) (s : State) : Host.Outcome State Fault Refusal :=
  if !s.tumblerRuns then .next s
  else
    let i := id.val + 1
    let was := s.sensorState i
    let st := s.nextSensor i v.toInt
    let s := s.setReg (Reg.fltSensor i) (BitVec.ofNat 32 (v.toNat + st * 2 ^ 20))
    -- a stack passed 85 °C
    let s := if 14 ≤ i ∧ i ≤ 21 ∧ 2 ≤ st ∧ was ≠ 2 ∧ was ≠ 3 then s.raise 1 6 else s
    .next (if st ≠ was ∧ st ≠ 0 then s.sensorEnters i st v.toNat else s)

/-- Whether a throttling condition of panel `p` holds (R613). -/
def State.throttled (s : State) (p : Nat) : Bool :=
  let hot (i : Nat) : Bool := s.sensorState i == 2 || s.sensorState i == 3
  ([1, 3, 4, 5, 28, 6 + p] : List Nat).any hot

def State.duty (s : State) (p : Nat) : Nat := s.flt.duty.get 16 p

/-- DUTY_STEP (R614). -/
def execDutyStep (p : Fin 8) (s : State) : Host.Outcome State Fault Refusal :=
  let d := s.duty p.val
  let d' := if s.throttled p.val then max 4 (d - 1) else min 16 (d + 1)
  .next (s.setFlt { s.flt with duty := s.flt.duty.put p.val d' })

/-- GET_SENSOR_READING (R612): STATE and VALUE of FLT_SENSOR. -/
def execGetSensorReading (c : Fin 5) (sensor : BitVec 16) (s : State) : Host.Outcome State Fault Refusal :=
  s.pldm c.val (fun s =>
    let i := sensor.toNat
    if 1 ≤ i ∧ i ≤ 28 then s.pldmSay c.val 0 [s.sensorState i, s.fld (Reg.fltSensor i) 0 20] else s.pldmOdd c.val)

/-- GET_STATE_SENSOR_READINGS (R612): sensor 29 is 1 while FLT_REPL.ACTIVE is set. -/
def execGetStateSensorReadings (c : Fin 5) (sensor : BitVec 16) (s : State) : Host.Outcome State Fault Refusal :=
  s.pldm c.val (fun s => if sensor.toNat = 29 then s.pldmSay c.val 0 [s.fld Reg.fltRepl 0 1] else s.pldmOdd c.val)

/-- GET_SENSOR_THRESHOLDS (R612): (level, side, value in 1/160 of the unit) of each threshold. -/
def execGetSensorThresholds (c : Fin 5) (sensor : BitVec 16) (s : State) : Host.Outcome State Fault Refusal :=
  s.pldm c.val (fun s =>
    let i := sensor.toNat
    if 1 ≤ i ∧ i ≤ 28 then
      s.pldmSay c.val 0 ((upTo 3).flatMap (fun k => [false, true].flatMap (fun u =>
        match s.threshold i k u with
        | some t => [k, b2n u, t.toNat]
        | none => [])))
    else s.pldmOdd c.val)

/-- SET_SENSOR_THRESHOLDS (R612): warnings alone change; anything else completes with ERROR_INVALID_DATA. -/
def execSetSensorThresholds (c : Fin 5) (sensor : BitVec 16) (set : List (Fin 3 × Bool × BitVec 20)) (s : State) :
    Host.Outcome State Fault Refusal :=
  s.pldm c.val (fun s =>
    let i := sensor.toNat
    if decide (1 ≤ i ∧ i ≤ 28) && set.all (fun x => x.1.val == 0 && decide (1 ≤ i) && (fixedThr i 0 x.2.1).isSome) then
      (s.setFlt { s.flt with warn := set.foldl (fun (t : Tab Int) x => t.put (2 * i + b2n x.2.1) x.2.2.toInt) s.flt.warn }).pldmSay
        c.val 0 []
    else s.pldmSay c.val 2 [])

/-! ### Events and the fault record (R620 to R622) -/

/-- After a cold start every unacknowledged entry of the copy is exported again (R621). -/
def State.exportAgain (s : State) : State :=
  if !s.flt.again then s
  else
    let n := s.flt.flashNext
    let es := (s.flt.flash.filter (fun e => decide (e.1 ≥ n))) ++ (s.flt.flash.filter (fun e => decide (e.1 < n)))
    (es.filter (fun e => !e.2.2)).foldl (fun s e => s.reportCper e.2.1) (s.setFlt { s.flt with again := false })

/-- SET_EVENT_RECEIVER (R622): a request through mailbox 1 or 2 stands for the endpoint of that host. -/
def execSetEventReceiver (c : Fin 5) (enable : Bool) (s : State) : Host.Outcome State Fault Refusal :=
  s.pldm c.val (fun s =>
    let b := if c.val < 3 then c.val else c.val - 2
    let others := s.flt.receivers.filter (· != b)
    let s := (s.setFlt { s.flt with receivers := if enable then others ++ [b] else others }).pldmSay c.val 0 []
    if enable then s.exportAgain else s)

/-- PLDM_FIRMWARE_UPDATE (R611): a piece of the image goes into HBM that no partition owns; staging follows STAGE_IMAGE. -/
def execPldmFirmwareUpdate (c : Fin 5) (op : FwOp) (s : State) : Host.Outcome State Fault Refusal :=
  s.pldm c.val (fun s => match op with
    | .inventory => s.pldmFree c.val
    | .complete => s.pldmSay c.val 0 []
    | .piece addr data =>
      if data.isEmpty || s.unowned addr.toNat data.length then (s.writeHbm none addr.toNat data).pldmSay c.val 0 []
      else s.pldmOdd c.val)

/-- PLDM_UNSUPPORTED (R611): ERROR_UNSUPPORTED_PLDM_CMD. -/
def execPldmUnsupported (c : Fin 5) (_ _ : Byte) (s : State) : Host.Outcome State Fault Refusal :=
  s.pldm c.val (fun s => s.pldmSay c.val 5 [])

/-- FAULT_COPY_TO_FLASH (R621): the oldest entry that has not been copied. -/
def execFaultCopyToFlash (s : State) : Host.Outcome State Fault Refusal :=
  match s.flt.toCopy with
  | [] => .next s
  | q :: _ => .next (if s.joineryRuns then s.copyFault q else s)

/-- The oldest entry is freed; its slot in flash is acknowledged (R620, R621). -/
def State.clearOldest (s : State) : State :=
  let f := s.flt
  match f.entries.find? f.head with
  | none => s
  | some e =>
    let s := if f.toCopy.contains e.seq then s.copyFault e.seq else s
    let ack (x : Nat × FltEntry × Bool) : Nat × FltEntry × Bool := if x.2.1.seq = e.seq then (x.1, x.2.1, true) else x
    s.setFlt { s.flt with
      entries := s.flt.entries.drop f.head, head := (f.head + 1) % 256, count := f.count - 1, flash := s.flt.flash.map ack }

/-- A completed pair of FLT_CLEAR frees its COUNT of oldest entries (R620); a COUNT of 0 or above what is valid voids it. -/
def State.clearFaults (s : State) (v : Word) : State :=
  let n := bits v 0 9
  if n = 0 ∨ n > s.flt.count then s else (upTo n).foldl (fun s _ => s.clearOldest) s

/-- FLT_CLEAR_PAIR (R620, R636). -/
def execFltClearPair (r : Requester) (c : Word) (s : State) : Host.Outcome State Fault Refusal :=
  match s.dbComplement r .fltClear c with
  | (none, s) => .next s
  | (some v, s) => .next (if r = .joinery then s.clearFaults v else s.dbFail (DbReg.fltClear.off + 4) 5 r)

/-! ### Reference clocks (R466, R654) -/

/-- TRN_CTL.BASE selects the sideband reference. -/
def State.baseSb (s : State) : Bool := s.fld Reg.trnCtl 3 1 == 1

/-- Presence of the two references. -/
def State.setRefs (s : State) (h0 sb : Bool) : State :=
  let s := s.setHport 0 { s.hport 0 with ref := h0 }
  s.setStart { s.start with sbRef := sb, holdover := !(if s.baseSb then sb else h0) }

/-- REFCLOCK_LOSS (R654): the generator runs on its holdover oscillator while the selected reference is absent; a loss of
H0_REFCLK takes H0's link down. -/
def execRefclockLoss (sb : Bool) (s : State) : Host.Outcome State Fault Refusal :=
  if sb then .next (s.setRefs (s.hport 0).ref false)
  else
    let s := s.setRefs false s.start.sbRef
    let s := if s.start.ready ∧ s.flt.shutdown = false then s.resetPort 0 else s
    .next (s.setHport 0 { s.hport 0 with link := false })

/-- REFCLOCK_RETURN (R654). -/
def execRefclockReturn (sb : Bool) (s : State) : Host.Outcome State Fault Refusal :=
  .next (if sb then s.setRefs (s.hport 0).ref true else s.setRefs true s.start.sbRef)

end Sys2Proof.Machine
end

