-- ==== Sys2Proof/Machine/RegView.lean ====
section
/-!
DEFINITION. Machine/RegView.lean: what a read of a register of BAR0 returns (R627, R638): stored registers as they stand, the
others computed from the state that they show.
-/
namespace Sys2Proof.Machine

/-- A register word. -/
def word (n : Nat) : Word := BitVec.ofNat 32 n

/-! ### GLB, TRN, LCH, HQ -/

/-- GLB_STATUS (R640). -/
def State.glbStatus (s : State) (r : Requester) : Word :=
  word (b2n s.start.ready + r.code * 2 + b2n (s.hport 0).ref * 2 ^ 3 + b2n s.start.sbRef * 2 ^ 4 + b2n (s.hport 0).link * 2 ^ 5
    + b2n (s.hport 1).link * 2 ^ 6 + s.fld Reg.fltRepl 0 1 * 2 ^ 7)

/-- TRN_STATUS (R52). -/
def State.trnStatus (s : State) : Word :=
  let t := s.turn
  word (b2n t.running + b2n (t.lock == .locked) * 2 + b2n (t.lock == .holdover) * 4 + b2n s.isAligned * 8 + b2n t.capExceeded * 16
    + b2n t.periodPending.isSome * 32 + s.capCores * 2 ^ 8)

/-- A register of the TRN block. -/
def State.viewTrn (s : State) (off : Nat) : Word :=
  let o := off - 0x10000
  if o = 0x04 then s.trnStatus
  else if o = 0x0C then 0
  else if o = 0x10 then word s.turnNo
  else if o = 0x18 then word s.turn.tick.toNat
  else if o = 0x14 ∨ o = 0x1C then s.cap.get 0 off
  else if 0x110 ≤ o ∧ o < 0x200 ∧ o % 0x10 = 0xC then word (min ones (s.rem ((o - 0x100) / 0x10)))
  else s.reg off

/-- A register of the LCH block (R641). -/
def State.viewLch (s : State) (off : Nat) : Word :=
  if off = Reg.lchStrobe then 0
  else if off = Reg.lchPending then s.pendingGroups.zeroExtend 32
  else if off = Reg.lchTick then s.latch.tick.zeroExtend 32
  else s.reg off

/-- State code of a queue (R473). -/
def QState.code : QState → Nat
  | .off => 0
  | .active => 1
  | .draining => 2
  | .error => 3

/-- A register of queue `q` (R461, R483): a host reads a queue that is not its own as zero, but for HQ_OWN. -/
def State.viewHq (s : State) (r : Requester) (off : Nat) : Word :=
  let q := (off - 0x100000) / 0x40
  let o := off % 0x40
  let v := s.queue q
  if o = 0x38 then word (s.qOwner q)
  else if !s.ownsQueue r q then 0
  else if o = 0x1C then word (v.sqHead + v.sqTail * 2 ^ 16)
  else if o = 0x20 then word (v.cqTail + v.cqHead * 2 ^ 16)
  else if o = 0x24 then word (v.st.code + b2n v.phase * 4 + v.cause * 2 ^ 4 + v.outstanding * 2 ^ 8)
  else if o = 0x3C then 0
  else s.reg off

/-- A register of the MSX block (R642): a port reads the other port's table and pending bits as 0. -/
def State.viewMsx (s : State) (r : Requester) (off : Nat) : Word :=
  let mine := match r.port? with
    | some p => decide (p = (off - 0x200000) / 0x10000)
    | none => true
  if off < 0x220000 ∧ mine = false then 0 else s.reg off

/-! ### MEM, LNK -/

/-- MEM_STK_STATUS of stack `k` (R368): pseudo-channels of the stack by p[4:0] (R346). TEMP of a powered stack is its readout,
which nothing else states. -/
def State.stkStatus (s : State) (k : Nat) : Word :=
  let st := s.fld (Reg.memStk k) 0 3
  let spared := ((upTo 32).filter (fun i => decide (s.pcState (32 * i + k) ≥ 1))).length
  word (st + (if st = 0 then 0 else (s.draw 8).toNat * 2 ^ 3) + spared * 2 ^ 16)

/-- A register of the MEM block (R365 to R368). -/
def State.viewMem (s : State) (off : Nat) : Word :=
  let o := off - 0x300000
  if o = 0 then s.memStatus
  else if o = 0x20 ∨ o = 0x24 then s.cap.get 0 off
  else if 0x400 ≤ o ∧ o < 0x480 ∧ o % 8 = 4 then 0
  else if 0x1000 ≤ o ∧ o < 0x1600 ∧ o % 8 = 4 then 0
  else if 0x2000 ≤ o ∧ o < 0x2800 ∧ o % 0x40 = 0 then s.stkStatus ((o - 0x2000) / 0x40)
  else s.reg off

/-- State code of a port (R409). -/
def LnkState.code : LnkState → Nat
  | .off => 0
  | .cal => 1
  | .seek => 2
  | .train => 3
  | .up => 4
  | .down => 5
  | .failed => 6

/-- Spare lanes in use by the map of `force`, or FAILED (R425). -/
def sparesUsed (force failed : BitVec 52) : Nat :=
  ((upTo 4).filter (fun i => failed.getLsbD (48 + i) || (buildMap force).contains (48 + i))).length

/-- LNK_STATUS (R425). -/
def State.lnkStatus (s : State) (p : Nat) : Word :=
  let q := s.port p
  word (q.st.code + b2n (isHalf q.txFailed) * 2 ^ 3 + b2n (isHalf q.rxForce) * 2 ^ 4 + sparesUsed q.txFailed q.txFailed * 2 ^ 5
    + sparesUsed q.rxForce q.rxFailed * 2 ^ 8 + b2n q.qualityLow * 2 ^ 11 + q.epoch % 256 * 2 ^ 16 + q.txGen % 16 * 2 ^ 24 + q.rxGen % 16 * 2 ^ 28)

/-- State and logical lane of physical lane `l` (R427): FAILED lanes, and the map of `force`. -/
def laneView (force failed : BitVec 52) (l : Nat) : Nat × Nat :=
  let k := (buildMap force).findIdx? (· == l)
  (if failed.getLsbD l then 2 else if k.isSome then 0 else 1, k.getD 0x3F)

/-- A register of port `p`'s window (R425 to R427). -/
def State.viewLnk (s : State) (off : Nat) : Word :=
  let p := (off - 0x400000) / 0x10000
  let o := off % 0x10000
  if o = 4 then s.lnkStatus p
  else if 0x100 ≤ o ∧ o < 0x1D0 then
    let l := (o - 0x100) / 4
    let t := laneView (s.port p).txFailed (s.port p).txFailed l
    let r := laneView (s.port p).rxForce (s.port p).rxFailed l
    word (t.1 + r.1 * 4 + t.2 * 2 ^ 4 + r.2 * 2 ^ 10)
  else s.reg off

/-! ### FLT, MBX, SEQ -/

/-- Who reads or writes a record through BAR0. -/
def writerOf (r : Requester) : Writer :=
  match r with
  | .h0 => .host 0
  | .h1 => .host 1
  | _ => .joinery

/-- A register of the FLT block proper (R624). -/
def State.viewFlt (s : State) (off : Nat) : Word :=
  let f := s.flt
  let o := off - 0x500000
  if o = 0 then
    word (f.count + b2n (decide (f.count ≥ 248)) * 2 ^ 9 + b2n ((upTo 8).any (fun p => decide (s.duty p < 16))) * 2 ^ 10
      + b2n f.shutdown * 2 ^ 11)
  else if o = 0xC then word f.head
  else if o = 0x10 then word f.seq
  else if o = 0x14 ∨ o = 0x18 then 0
  else if 0x40 ≤ o ∧ o < 0x60 then word (s.duty ((o - 0x40) / 4))
  else if o = 0x174 then word (16 * s.fld Reg.fltRepl 0 1)
  else if 0x2000 ≤ o ∧ o < 0x4000 then
    match f.entries.find? ((o - 0x2000) / 0x20) with
    | some e => word (num e.bytes (o % 0x20) 4)
    | none => 0
  else s.reg off

/-- A register of the SIL and SHT blocks (R542, R549, R563). -/
def State.viewSil (s : State) (r : Requester) (off : Nat) : Word :=
  if off = Reg.silStatus then
    word (min 8191 s.sill.prov.length + b2n ((upTo 16).any (fun j => s.stepState j == 3)) * 2 ^ 13)
  else if 0x505000 ≤ off ∧ off < 0x505200 then word (ofBytes (s.recRead (writerOf r) (0xF000160000 + (off - 0x505000)) 4))
  else s.reg off

/-- A register of the MBX and STR blocks (R584, R585, R602, R603). -/
def State.viewMbx (s : State) (r : Requester) (off : Nat) : Word :=
  let o := off - 0x600000
  let stand := s.start.kind == 2
  let x := s.start.rec_
  if o = 0 then s.secState
  else if o = 0x10 then 0
  else if 0x1000 ≤ o ∧ o < 0x7000 then
    let k := (o - 0x1000) / 0x2000
    if !s.reachesMbx r k then 0
    else if o % 0x2000 = 0x1000 then 0
    else if o % 0x2000 = 0x1004 then word ((s.mailbox k).st + (s.mailbox k).result * 2 ^ 8)
    else s.reg off
  else if o = 0xF000 then s.strStatus
  else if o = 0xF004 ∨ o = 0xF008 then 0
  else if o = 0xF044 then word s.flash.starts
  else if 0xF100 ≤ o ∧ o < 0xF114 ∧ stand = false then 0
  else if o = 0xF10C then 0
  else if o = 0xF110 then word (x.state + x.pass * 4 + x.err * 2 ^ 4 + x.got.length * 2 ^ 8)
  else s.reg off

/-- WAIT_CMD of SEQ_PRE (R508): the pre-emption stops between commands, and one still runs. -/
def State.preWaits (s : State) (l : Nat) : Bool :=
  (s.cpre l).st == .stopping && !s.enginesStopped l && (s.fld Reg.seqCtl 1 1 == 1 || (s.core l).yield.isNone)

/-- STATE of SEQ_PRE: it reads NONE while engines are being stopped. -/
def PreState.code : PreState → Nat
  | .none => 0
  | .stopping => 0
  | .saving => 1
  | .saved => 2
  | .restoring => 3

/-- A register of the SEQ block (R485, R491, R506 to R508). -/
def State.viewSeq (s : State) (r : Requester) (off : Nat) : Word :=
  let o := off - 0x700000
  if o = 4 then word ((s.seqIn 1).length + (s.seqIn 2).length)
  else if 0x400 ≤ o ∧ o < 0x800 then
    let l := (o - 0x400) / 8
    let x := s.cpre l
    if o % 8 = 0 then word (x.st.code + b2n (s.core l).yield.isSome * 4 + b2n (s.preWaits l) * 8) else word x.bytes
  else if 0x10000 ≤ o ∧ o < 0x30000 then word (ofBytes (s.recRead (writerOf r) (progRec 0 + (o - 0x10000)) 4))
  else if 0x100000 ≤ o then word (ofBytes (s.recRead (writerOf r) (seqEnt 0 + (o - 0x100000)) 4))
  else s.reg off

/-! ### Core windows (R639) -/

/-- State code of a thread (R200). -/
def ThrState.code : ThrState → Nat
  | .off => 0
  | .ready => 1
  | .wait => 2
  | .faulted => 3
  | .halted => 4

/-- WAITON of a thread (R226). -/
def Wait.code : Wait → Nat
  | .none => 0
  | .data .fetch _ _ => 2
  | .data _ _ _ => 1
  | .queue _ _ _ _ => 3
  | .twait _ _ => 4
  | .summary _ _ => 5
  | .fence _ => 6
  | .pause => 7
  | .wtick _ => 7

def Thread.live (x : Thread) : Bool := x.st == .ready || x.st == .wait

/-- CCR_STATUS (R225). -/
def State.ccrStatus (s : State) (l : Nat) : Word :=
  let set (f : Thread → Bool) : Nat := (upTo 8).foldl (fun a t => a + b2n (f (s.thread l t)) * 2 ^ t) 0
  word (set Thread.live + set (fun x => x.st == .faulted) * 2 ^ 8 + set (fun x => x.st == .halted) * 2 ^ 16
    + (s.core l).queue.length * 2 ^ 24)

/-- A register of thread `t` (R226). -/
def State.viewThread (s : State) (l t off : Nat) : Word :=
  let x := s.thread l t
  let o := off % 0x40
  if o = 0x00 then word (b2n x.live + x.st.code * 2 + x.wait.code * 2 ^ 4 + x.part.toNat * 2 ^ 8)
  else if o = 0x04 then word x.start.toNat
  else if o = 0x08 then word (x.start.toNat / 2 ^ 32)
  else if o = 0x0C then word x.pc.toNat
  else if o = 0x10 ∨ o = 0x1C then s.cap.get 0 off
  else if o = 0x14 then word (x.excCause.toNat + x.excCode.toNat * 2 ^ 8)
  else if o = 0x18 then word x.excAddr.toNat
  else if o = 0x20 then x.issuedRc
  else 0

/-- The running stage of a class on the core that carries `l`: its descriptor and how far it is. -/
def State.running (s : State) (l cls : Nat) : Option (Desc × StageRun) :=
  (s.core l).running.findSome? (fun r =>
    (r.stages.zipIdx.find? (fun x => x.1.started && !x.1.done && Desc.cls (r.desc x.2) == cls)).map (fun x => (r.desc x.2, x.1)))

/-- MXE_STATUS (R127) of the class-1 stage that is under way. -/
def State.mxeStatus (s : State) (i : Nat) : Word :=
  let p := s.phy i
  match (s.logOf i).bind (fun l => s.running l 1) with
  | none => 0
  | some (d, x) =>
    word (b2n x.busy + d.mode.code * 2 + b2n p.mxHatchWait * 2 ^ 4 + b2n p.mxOpndWait * 2 ^ 5
      + b2n p.mxAccWait * 2 ^ 6 + x.step % 256 * 2 ^ 8)

/-- State code of a slot (R138). -/
def SlotState.code : SlotState → Nat
  | .free => 0
  | .filling => 1
  | .kept => 2
  | .ready => 3
  | .draining => 4
  | .poisoned => 5

/-- ACC_STATE (R161); both slots of a pair show one state. -/
def Phys.accState (p : Phys) : Word :=
  let slot (t : Nat) : Slot := p.slots.get {} (if (p.slots.get {} (t / 2 * 2)).pair then t / 2 * 2 else t)
  word ((upTo 8).foldl (fun a t => a + (slot t).st.code * 8 ^ t) 0)

/-- HAT_STATUS (R162) of physical core `i`. HIGH is kept with the core (R160). -/
def State.hatStatus (s : State) (i : Nat) : Word :=
  let p := s.phy i
  let n := p.hatch.length
  let full := decide (n = 8) || (upTo 8).all (fun t => ((p.slots.get {} (if (p.slots.get {} (t / 2 * 2)).pair then t / 2 * 2 else t)).st != .free))
  word (n + b2n full * 2 ^ 4 + s.fld (coreWin i + 0x1104) 8 4 * 2 ^ 8)

/-- VXE_STATUS (R193). -/
def State.vxeStatus (s : State) (i : Nat) : Word :=
  let p := s.phy i
  let busy := ((s.logOf i).bind (fun l => s.running l 4)).isSome || p.hatchWait || p.sinkWait
  word (b2n busy + b2n p.stream * 2 + b2n p.hatchWait * 4 + b2n p.sinkWait * 8 + p.vthread % 8 * 2 ^ 4 + b2n p.pass * 2 ^ 7
    + p.vl % 1024 * 2 ^ 8 + p.vpc % 1024 * 2 ^ 18)

/-- A flag set of the logical core mapped to physical core `i` (R126). -/
def State.flagsOf (s : State) (i set : Nat) : Word :=
  match s.logOf i with
  | some l => ((s.core l).flags.get 0 set).zeroExtend 32
  | none => if set = 0 then (s.phy i).testFlags.zeroExtend 32 else 0

/-- Miss slots in use (R389): nothing states how transfers hold them over time. -/
def State.missSlots (s : State) (i : Nat) : Word :=
  match s.logOf i with
  | some l => if (s.running l 6).isSome ∨ (s.running l 7).isSome then word ((s.draw 6).toNat % 49) else 0
  | none => 0

/-- A register of the window of physical core `i` (R639). -/
def State.viewCore (s : State) (off : Nat) : Word :=
  let i := (off - 0x1000000) / 0x10000
  let o := off % 0x10000
  let p := s.phy i
  if o < 0x300 ∧ o ≠ 8 then
    match s.logOf i with
    | none => 0
    | some l =>
      if o = 0 then s.ccrStatus l
      else if o < 0x100 then s.reg (ctxWin l + o)
      else s.viewThread l ((o - 0x100) / 0x40) off
  else if o = 0x1000 then s.mxeStatus i
  else if o = 0x1004 then s.flagsOf i 0
  else if o = 0x1100 then p.accState
  else if o = 0x1104 then s.hatStatus i
  else if o = 0x1108 then word ((p.hatch.headD 0).toNat)
  else if o = 0x110C then s.cap.get 0 off
  else if o = 0x1200 then s.vxeStatus i
  else if o = 0x1204 then s.flagsOf i 1
  else if o = 0x1300 then s.flagsOf i 2
  else if o = 0x1304 then s.missSlots i
  else s.reg off

/-- What a read of the register at `off` by `r` returns. -/
def State.view (s : State) (r : Requester) (off : Nat) : Word :=
  if off < 0x10000 then
    (if off = 0x18 then s.glbStatus r else if off = Reg.glbTimeLo then word s.time else if off = Reg.glbTimeHi then s.cap.get 0 off
      else s.reg off)
  else if off < 0x20000 then s.viewTrn off
  else if off < 0x30000 then s.viewLch off
  else if off < 0x100000 then 0
  else if off < 0x200000 then s.viewHq r off
  else if off < 0x300000 then s.viewMsx r off
  else if off < 0x400000 then s.viewMem off
  else if off < 0x460000 then s.viewLnk off
  else if off < 0x500000 then 0
  else if off < 0x504000 then s.viewFlt off
  else if off < 0x600000 then s.viewSil r off
  else if off < 0x700000 then s.viewMbx r off
  else if off < 0x1000000 then s.viewSeq r off
  else if off < 0x1880000 then s.viewCore off
  else 0

/-! ### What a read changes (R21, R628) -/

/-- Captures the high halves that a read of a low half takes with it (R21): (register, value). -/
def State.captures (s : State) (off : Nat) : List (Nat × Word) :=
  let o := off % 0x10000
  let i := (off - 0x1000000) / 0x10000
  let thread : Option Thread := (s.logOf i).map (fun l => s.thread l ((o - 0x100) / 0x40))
  if off = Reg.glbTimeLo then [(Reg.glbTimeHi, word (s.time / 2 ^ 32))]
  else if off = Reg.trnNumLo then [(Reg.trnNumHi, word (s.turnNo / 2 ^ 32))]
  else if off = Reg.trnTickLo then [(Reg.trnTickHi, word (s.turn.tick.toNat / 2 ^ 32))]
  else if off = Reg.memEccLo then [(Reg.memEccHi, s.reg Reg.memEccHi), (Reg.memEccInfo, s.reg Reg.memEccInfo)]
  else if off < 0x1000000 ∨ 0x1880000 ≤ off then []
  else if o = 0x1108 then [(off + 4, word (((s.phy i).hatch.headD 0).toNat / 2 ^ 32))]
  else if 0x100 ≤ o ∧ o < 0x300 then
    match thread with
    | some x =>
      if o % 0x40 = 0x0C then [(off + 4, word (x.pc.toNat / 2 ^ 32))]
      else if o % 0x40 = 0x18 then [(off + 4, word (x.excAddr.toNat / 2 ^ 32))]
      else []
    | none => []
  else []

/-- The source whose event register lies at `off`. -/
def eventSource (off : Nat) : Option Nat :=
  if off = Reg.trnEvent then some 0 else if off = Reg.memEvent then some 1 else if off = Reg.fltEvent then some 2
  else if off = Reg.silEvent then some 3 else if off = Reg.shtEvent then some 4 else if off = Reg.seqEvent then some 5
  else if 0x400000 ≤ off ∧ off < 0x460000 ∧ off % 0x10000 = 8 then some (8 + (off - 0x400000) / 0x10000)
  else none

/-- Clears the RC bits of a stored register. -/
def State.clearRc (s : State) (off : Nat) : State :=
  let m := (regAcc off).rc
  if m = 0 then s else s.setReg off (s.reg off &&& ~~~(word m))

/-- RC fields of a core window that are not stored registers. -/
def State.clearCoreRc (s : State) (off : Nat) : State :=
  let i := (off - 0x1000000) / 0x10000
  let o := off % 0x10000
  let flags (set : Nat) : State := match s.logOf i with
    | some l => s.setCore l { s.core l with flags := (s.core l).flags.put set 0 }
    | none => if set = 0 then s.setPhy i { s.phy i with testFlags := 0 } else s
  if o = 0x1004 then flags 0
  else if o = 0x1204 then flags 1
  else if o = 0x1300 then flags 2
  else if o = 0x1104 then s.setFld (coreWin i + 0x1104) 8 4 0
  else if o < 0x300 then
    match s.logOf i with
    | none => s
    | some l =>
      if o = 4 then srcChange (16 + l) s (s.setReg (ctxWin l + 4) 0)
      else if 0x100 ≤ o ∧ o % 0x40 = 0x20 then
        let t := (o - 0x100) / 0x40
        s.setThread l t { s.thread l t with issuedRc := 0 }
      else s
  else s.clearRc off

/-- Clears what a read of `off` by `r` clears (R628): a host's read of a queue that is not its own clears nothing. -/
def State.readClears (s : State) (r : Requester) (off : Nat) : State :=
  if 0x1000000 ≤ off then (if off < 0x1880000 then s.clearCoreRc off else s)
  else if 0x100000 ≤ off ∧ off < 0x200000 ∧ s.ownsQueue r ((off - 0x100000) / 0x40) = false then s
  else
    let s' := s.clearRc off
    let s' := if off = Reg.trnEvent then s'.setTurn { s'.turn with sinceRead := 0 } else s'
    match eventSource off with
    | some k => srcChange k s s'
    | none => s'

/-- Whether the value of a register is in part an open draw. -/
def drawsOn (off : Nat) : Bool :=
  (decide (0x302000 ≤ off) && decide (off < 0x302800) && off % 0x40 == 0)
    || (decide (0x1000000 ≤ off) && decide (off < 0x1880000) && (off % 0x10000 == 0x1000 || off % 0x10000 == 0x1304))

/-- A read that reaches the register: its value goes to the requester, RC fields clear, high halves are captured. -/
def State.readReg (s : State) (r : Requester) (off : Nat) : State :=
  let v := s.view r off
  let caps := s.captures off
  let s := if drawsOn off then s.drew else s
  let s : State := { s with cap := caps.foldl (fun (t : Tab Word) x => t.put x.1 x.2) s.cap }
  (s.readClears r off).emit (.regData r off v)

/-- Whether BAR0 offset `off` answers a host (R461, R579, R582): once ready the whole of it, in the recovery stand GLB and STR. -/
def State.bar0Hears (s : State) (r : Requester) (off : Nat) : Bool :=
  match r.port? with
  | none => true
  | some p =>
    s.hears r
      || (s.start.kind == 2 && s.portsLive && !(s.hport p).d3hot
        && (decide (off < 0x10000) || (decide (0x60F000 ≤ off) && decide (off < 0x610000))))

/-- A 4-byte read of BAR0 (R461). -/
def State.busRead (s : State) (r : Requester) (off : Nat) : State :=
  if !s.bar0Hears r off then
    match r.port? with
    | some p => if s.portsLive then s.emit (.completion p s.deafStatus []) else s
    | none => s
  else if off % 4 ≠ 0 then
    match r.port? with
    | some p => s.emit (.completion p .unsupported [])
    | none => s
  else s.readReg r off

/-- RC_READ (R628). -/
def execRcRead (r : Requester) (off : BitVec 26) (s : State) : Host.Outcome State Fault Refusal := .next (s.busRead r off.toNat)

/-- LO_CAPTURE_READ (R21). -/
def execLoCaptureRead (r : Requester) (off : BitVec 26) (s : State) : Host.Outcome State Fault Refusal :=
  .next (s.busRead r off.toNat)

end Sys2Proof.Machine
end

