-- ==== Sys2Proof/Machine/RegBus.lean ====
section
/-!
DEFINITION. Machine/RegBus.lean: the Deadbolt pairs of ownership and security registers (R357, R467, R602, R641), and writes of
BAR0 registers (R626, R627, R629).
-/
namespace Sys2Proof.Machine

/-! ### Pairs -/

/-- A write to a security register from any requester but Tumbler is counted and does nothing else (R602, R637). -/
def State.secDenied (s : State) : State := s.bump Reg.secDenied 1

/-- The value half of a Deadbolt register is written (R23, R602, R635). -/
def State.valueHalf (s : State) (r : Requester) (reg : DbReg) (v : Word) : State :=
  if reg = .trnPeriod ∧ s.spindleOn = false then (if s.mayTrn r then s.writePeriod v else s)
  else if reg = .secLock ∧ r ≠ .tumbler then (if s.hears r then s.secDenied else s)
  else s.dbValue r reg v

/-- DEADBOLT_VALUE_WRITE (R635). -/
def execDeadboltValueWrite (r : Requester) (reg : DbReg) (v : Word) (s : State) : Host.Outcome State Fault Refusal :=
  .next (s.valueHalf r reg v)

/-- A pair that Joinery alone may complete: what it does, or DENIED (R629, R636). -/
def State.joineryPair (s : State) (r : Requester) (reg : DbReg) (c : Word) (act : Word → State → State) : State :=
  match s.dbComplement r reg c with
  | (none, s) => s
  | (some v, s) => if r = .joinery then act v s else s.dbFail (reg.off + 4) 5 r

/-- The initial values of a partition that is assigned (R91, R357). -/
def State.assignPart (s : State) (p : Nat) : State :=
  (s.setRec (lossRec p) 0 8 16).setRec (lossRec p + 4) 0 32 2000

/-- MEM_PART_OWN[p] takes a value (R367): HOST 3 leaves the field unchanged. -/
def State.partOwn (s : State) (p : Nat) (v : Word) : State :=
  let off := 0x300400 + 8 * p
  let was := s.partValid p
  let host := if bits v 0 2 = 3 then s.fld off 0 2 else bits v 0 2
  let s := s.setReg off (word (host + bits v 2 1 * 4))
  if !was && bit v 2 then s.assignPart p else s

/-- MEM_PART_OWN_PAIR (R357, R367). -/
def execMemPartOwnPair (r : Requester) (p : Fin 16) (c : Word) (s : State) : Host.Outcome State Fault Refusal :=
  .next (s.joineryPair r (.memPartOwn p) c (fun v s => s.partOwn p.val v))

/-- MEM_RANGE[j] takes a value (R367); a pair that would give range 767 an owner is discarded (R572). -/
def State.rangeOwn (s : State) (j : Nat) (v : Word) : State :=
  if j = 191 ∧ bit v 28 then s else s.setReg (0x301000 + 8 * j) (v &&& 0x1F1F1F1F)

/-- MEM_RANGE_PAIR (R357, R572). -/
def execMemRangePair (r : Requester) (j : Fin 192) (c : Word) (s : State) : Host.Outcome State Fault Refusal :=
  .next (s.joineryPair r (.memRange j) c (fun v s => s.rangeOwn j.val v))

/-- HQ_OWN of group `g` takes a value (R467): only while every queue of the group is OFF. -/
def State.groupOwn (s : State) (g : Nat) (v : Word) : State :=
  if s.host.queues.all (fun q => q.1 / 256 != g || q.2.st == .off) then
    s.setHost { s.host with owners := s.host.owners.put g (bits v 0 2) }
  else s

/-- HQ_OWN_PAIR (R467). -/
def execHqOwnPair (r : Requester) (g : Fin 64) (c : Word) (s : State) : Host.Outcome State Fault Refusal :=
  .next (s.joineryPair r (.hqOwn g) c (fun v s => s.groupOwn g.val v))

/-- LCH_OWN_PAIR (R641). -/
def execLchOwnPair (r : Requester) (c : Word) (s : State) : Host.Outcome State Fault Refusal :=
  .next (s.joineryPair r .lchOwn c (fun v s => s.setReg Reg.lchOwn v))

/-- A write of SEC_LOCK_C (R602): Tumbler's pair sets bits; set bits clear only at a cold start. -/
def State.secLockPair (s : State) (r : Requester) (c : Word) : State :=
  if r ≠ .tumbler then (if s.hears r then s.secDenied else s)
  else match s.dbComplement r .secLock c with
    | (none, s) => s
    | (some v, s) => s.setReg Reg.secLock (s.reg Reg.secLock ||| (v &&& 3))

/-- SEC_LOCK_PAIR (R602). -/
def execSecLockPair (r : Requester) (c : Word) (s : State) : Host.Outcome State Fault Refusal := .next (s.secLockPair r c)

/-- The Deadbolt register whose half lies at `off`, and whether it is the complement half (R637). -/
def dbAt (off : Nat) : Option (DbReg × Bool) :=
  let half := off % 8 == 4
  if off = 0x10008 ∨ off = 0x1000C then some (.trnPeriod, half)
  else if off = 0x20010 ∨ off = 0x20014 then some (.lchOwn, half)
  else if 0x100000 ≤ off ∧ off < 0x200000 ∧ (off % 0x4000 = 0x38 ∨ off % 0x4000 = 0x3C) then
    some (.hqOwn ⟨(off - 0x100000) / 0x4000 % 64, Nat.mod_lt _ (by decide)⟩, half)
  else if 0x300400 ≤ off ∧ off < 0x300480 then some (.memPartOwn ⟨(off - 0x300400) / 8 % 16, Nat.mod_lt _ (by decide)⟩, half)
  else if 0x301000 ≤ off ∧ off < 0x301600 then some (.memRange ⟨(off - 0x301000) / 8 % 192, Nat.mod_lt _ (by decide)⟩, half)
  else if off = 0x500014 ∨ off = 0x500018 then some (.fltClear, !half)
  else if off = 0x60F004 ∨ off = 0x60F008 then some (.strRestart, !half)
  else if off = 0x60000C ∨ off = 0x600010 then some (.secLock, !half)
  else none

/-! ### Writes by block -/

/-- Writes the RW bits of a stored register, and holds its LW bits pending (R627). -/
def State.storeRw (s : State) (off : Nat) (v : Word) : State :=
  let a := regAcc off
  let s := if a.rw = 0 then s else s.setReg off ((s.reg off &&& ~~~(word a.rw)) ||| (v &&& word a.rw))
  if a.lw = 0 then s else s.pendLw off (word a.lw) v

/-- An IRQ_EN register of source `k` is written (R644). -/
def State.storeIrq (s : State) (k off : Nat) (v : Word) : State := srcChange k s (s.storeRw off v)

def State.putTrn (s : State) (r : Requester) (off : Nat) (v : Word) : State :=
  if off = Reg.trnCtl then s.writeTrnCtl r v
  else if s.mayTrn r = false then s
  else if off = Reg.trnIrqEn then s.storeIrq 0 off v
  else s.storeRw off v

def State.putLch (s : State) (r : Requester) (off : Nat) (v : Word) : State :=
  let m : BitVec 16 := BitVec.ofNat 16 v.toNat
  let mine := s.ownedBits r m
  let lost := count16 (m &&& ~~~mine)
  if off = Reg.lchStrobe then (s.strobe mine).bumpFld Reg.lchIgnored 0 16 lost
  else if off = Reg.lchTick then
    ({ s with latch := { s.latch with tick := (s.latch.tick &&& s.foreignGroups r) ||| mine } }).bumpFld Reg.lchIgnored 0 16 lost
  else if off = Reg.lchFixgrp then (if r.port?.isSome then s else s.storeRw off v)
  else s

/-- Registers of a queue (R483): ring addresses only while it is OFF. -/
def State.putHq (s : State) (r : Requester) (off : Nat) (v : Word) : State :=
  let q := (off - 0x100000) / 0x40
  let o := off % 0x40
  if o = 0 then s.writeHqCtl r q v
  else if !s.ownsQueue r q then s
  else if 8 ≤ o ∧ o ≤ 0x14 then (if (s.queue q).st = .off then s.storeRw off v else s)
  else s.storeRw off v

/-- MSI-X tables and routes (R642, R643, R645). -/
def State.putMsx (s : State) (r : Requester) (off : Nat) (v : Word) : State :=
  if 0x220000 ≤ off then
    let k := (off - 0x220000) / 4
    if k < 6 ∨ (8 ≤ k ∧ k < 14) ∨ (16 ≤ k ∧ k < 144) then s.writeRoute r k v else s
  else
    let p := (off - 0x200000) / 0x10000
    let mine := match r.port? with
      | some h => decide (h = p)
      | none => true
    if mine = false then s
    else if off % 0x10000 < 0x8000 ∧ off % 16 = 12 ∧ bit v 0 = false then s.unmask p (some (off % 0x10000 / 16))
    else s.storeRw off v

/-- Regulators, and the registers that Joinery alone writes (R366, R629). A new LGRP takes the pending fields with it (R631). -/
def State.putMem (s : State) (r : Requester) (off : Nat) (v : Word) : State :=
  let o := off - 0x300000
  if 0x100 ≤ o ∧ o < 0x200 then
    let p := (o - 0x100) / 0x10
    let mine := match r with
      | .joinery => true
      | .tumbler => false
      | .h0 => s.partHost p == 1
      | .h1 => s.partHost p == 2
    if mine then s.storeRw off v else s
  else if r ≠ .joinery then s
  else if off = Reg.memIrqEn then s.storeIrq 1 off v
  else s.storeRw off v

def State.putLnk (s : State) (r : Requester) (off : Nat) (v : Word) : State :=
  let p := (off - 0x400000) / 0x10000
  let o := off % 0x10000
  if r ≠ .joinery then s
  else if o = 0 then s.writeLnkCtl r p v
  else if o = 0x0C then s.storeIrq (8 + p) off v
  else s.storeRw off v

/-- The four bytes of a word, all enabled. -/
def wordIn (v : Word) : List (Option Byte) := (toBytes 4 v.toNat).map some

/-- FLT, SIL and SHT (R542, R543, R549, R563, R629). -/
def State.putFlt (s : State) (r : Requester) (off : Nat) (v : Word) : State :=
  if 0x505000 ≤ off ∧ off < 0x505200 then s.recWrite (writerOf r) (0xF000160000 + (off - 0x505000)) (wordIn v)
  else if 0x504100 ≤ off ∧ off < 0x504180 ∧ off % 0x10 = 4 then s.writeTestReq ((off - 0x504100) / 0x10) v
  else if off = Reg.silCtl then (if r.port?.isSome then s else s.storeRw off v)
  else if r ≠ .joinery then s
  else if off = Reg.fltIrqEn then s.storeIrq 2 off v
  else if off = Reg.silIrqEn then s.storeIrq 3 off v
  else if off = Reg.shtIrqEn then s.storeIrq 4 off v
  else s

/-- REC_CMD (R580, R581). -/
def State.recCmd (s : State) (p : Nat) (v : Word) : State :=
  if bits v 0 2 = 1 then s.recLoad p 1
  else if bits v 0 2 = 2 then s.recLoad p 2
  else if bits v 0 2 = 3 ∧ s.recTakes = true then (s.setFlash { s.flash with coldFails := 2 }).requestStart false []
  else s

/-- Mailboxes and recovery registers (R585, R603). -/
def State.putMbx (s : State) (r : Requester) (off : Nat) (v : Word) : State :=
  let o := off - 0x600000
  if 0x1000 ≤ o ∧ o < 0x7000 then
    let k := (o - 0x1000) / 0x2000
    if !s.reachesMbx r k then s
    else if o % 0x2000 = 0x1000 then (if bit v 0 then s.mbxGo r k else if bit v 1 then s.mbxAck r k else s)
    else if (s.mailbox k).st = 1 then s
    else s.storeRw off v
  else match r.port? with
    | some p =>
      if s.start.kind ≠ 2 then s
      else if off = Reg.recCmd then s.recCmd p v
      else if 0xF100 ≤ o ∧ o < 0xF10C then s.storeRw off v
      else s
    | none => s

/-- SEQ registers (R506, R507) and the tables (R485, R491). -/
def State.putSeq (s : State) (r : Requester) (off : Nat) (v : Word) : State :=
  let o := off - 0x700000
  if 0x10000 ≤ o ∧ o < 0x30000 then s.recWrite (writerOf r) (progRec 0 + (o - 0x10000)) (wordIn v)
  else if 0x100000 ≤ o then s.recWrite (writerOf r) (seqEnt 0 + (o - 0x100000)) (wordIn v)
  else if off = Reg.seqIrqEn then s.storeIrq 5 off v
  else if off = Reg.seqCtl then (if r.port?.isSome then s else s.storeRw off v)
  else if off = Reg.seqLiveMax ∨ off = Reg.seqSaveLo ∨ off = Reg.seqSaveHi then
    (if r.port?.isSome || s.fld Reg.seqCtl 0 1 == 1 then s else s.storeRw off v)
  else s

/-- CCR and MXE registers of a window (R129, R225, R226). -/
def State.putCore (s : State) (r : Requester) (off : Nat) (v : Word) : State :=
  let i := (off - 0x1000000) / 0x10000
  let o := off % 0x10000
  if o = 0x1008 then s.writeInject i v
  else if o = 8 then (if bit v 0 then s.setFld (coreWin i + 8) 0 1 1 else s)
  else match s.logOf i with
    | none => s
    | some l =>
      if o = 0xC then srcChange (16 + l) s (s.setReg (ctxWin l + 0xC) (v &&& 0x1FFFF))
      else if 0x100 ≤ o ∧ o < 0x300 then
        let t := (o - 0x100) / 0x40
        let x := s.thread l t
        if o % 0x40 = 0 then (if bit v 0 then s.writeRun1 r i t else s.writeRun0 r i t)
        else if o % 0x40 = 4 then
          s.setThread l t { x with start := BitVec.ofNat 48 (x.start.toNat / 2 ^ 32 * 2 ^ 32 + v.toNat / 4 * 4) }
        else if o % 0x40 = 8 then
          s.setThread l t { x with start := BitVec.ofNat 48 (x.start.toNat % 2 ^ 32 + v.toNat % 2 ^ 16 * 2 ^ 32) }
        else s
      else s

/-- An operation that a host or Joinery asks for through SEQ_CMD (R507): it is complete before the next write. -/
def seqOp (r : Requester) (off : Nat) (v : Word) : Option (Fin 262144 × Nat) :=
  if r ≠ .tumbler ∧ off = Reg.seqCmd r.code then some (⟨bits v 0 18, Nat.mod_lt _ (by decide)⟩, bits v 20 4) else none

/-- A complement half written through REGISTER_WRITE. -/
def State.complementHalf (s : State) (r : Requester) (reg : DbReg) (v : Word) : State :=
  match reg with
  | .trnPeriod =>
    if s.spindleOn = false then s
    else match s.dbComplement r .trnPeriod v with
      | (none, s) => s
      | (some w, s) => if s.mayTrn r then s.periodPair w else s.dbFail (DbReg.trnPeriod.off + 4) 5 r
  | .memPartOwn p => s.joineryPair r reg v (fun w s => s.partOwn p.val w)
  | .memRange j => s.joineryPair r reg v (fun w s => s.rangeOwn j.val w)
  | .hqOwn g => s.joineryPair r reg v (fun w s => s.groupOwn g.val w)
  | .lchOwn => s.joineryPair r reg v (fun w s => s.setReg Reg.lchOwn w)
  | .fltClear => s.joineryPair r reg v (fun w s => s.clearFaults w)
  | .strRestart => s.restartPair r v []
  | .secLock => s.secLockPair r v

/-- A write that reaches the register at `off`. -/
def State.writeReg (s : State) (r : Requester) (off : Nat) (v : Word) : State :=
  match dbAt off with
  | some (reg, false) => s.valueHalf r reg v
  | some (reg, true) => s.complementHalf r reg v
  | none =>
    if off < 0x10000 then s
    else if off < 0x20000 then s.putTrn r off v
    else if off < 0x100000 then s.putLch r off v
    else if off < 0x200000 then s.putHq r off v
    else if off < 0x300000 then s.putMsx r off v
    else if off < 0x400000 then s.putMem r off v
    else if off < 0x460000 then s.putLnk r off v
    else if off < 0x500000 then s
    else if off < 0x600000 then s.putFlt r off v
    else if off < 0x700000 then s.putMbx r off v
    else if off < 0x1000000 then s.putSeq r off v
    else if off < 0x1880000 then s.putCore r off v
    else s

/-- Whether a register takes the written value as storage, so that a second write of the same value changes nothing more. -/
def stores (off : Nat) : Bool := (regAcc off).rw != 0 || (regAcc off).lw != 0

/-- Values that requesters later in the order of R626 have written to `off` in this cycle, in that order: the last of each. -/
def State.laterWrites (s : State) (r : Requester) (off : Nat) : List (Requester × Word) :=
  ([.h1, .joinery, .tumbler] : List Requester).filterMap (fun q =>
    if q.code ≤ r.code then none
    else (s.latch.writes.find? (fun x => x.1 == q && x.2.1 == off)).map (fun x => (q, x.2.2)))

/-- A write of a register that stores its value: writes of one cycle act in the order H0, H1, Joinery, Tumbler (R626). -/
def State.writeInOrder (s : State) (r : Requester) (off : Nat) (v : Word) : State :=
  let s := (s.laterWrites r off).foldl (fun s x => s.writeReg x.1 off x.2) (s.writeReg r off v)
  { s with latch := { s.latch with writes := (r, off, v) :: s.latch.writes } }

/-- A 4-byte write of BAR0 (R461): an address that is not a multiple of 4 is discarded with a report through AER. -/
def State.busWrite (s : State) (r : Requester) (off : Nat) (v : Word) : State :=
  if !s.bar0Hears r off then s
  else if off % 4 ≠ 0 then
    match r.port? with
    | some p => s.emit (.aer p)
    | none => s
  else if stores off then s.writeInOrder r off v
  else s.writeReg r off v

/-- REGISTER_WRITE (R627). -/
def execRegisterWrite (r : Requester) (off : BitVec 26) (v : Word) (s : State) : Host.Outcome State Fault Refusal :=
  match (if s.bar0Hears r off.toNat then seqOp r off.toNat v else none) with
  | some (i, 1) => Sys2Proof.Machine.execActivate r i s
  | some (i, 2) => Sys2Proof.Machine.execRetire r i s
  | _ => .next (s.busWrite r off.toNat v)

end Sys2Proof.Machine
end

