-- ==== Sys2Proof/Machine/Tick.lean ====
section
/-!
DEFINITION. Machine/Tick.lean: the tick (R20): what it ends, what it counts, what it starts.
-/
namespace Sys2Proof.Machine

/-! ### Page groups (R302) -/

/-- Whether the step that wrote the last token of granule g has crossed the Sill, with every command of it, and no other command
that wrote the group's frames has still to cross. -/
def State.groupCrossed (s : State) (p i g : Nat) : Bool :=
  let n := s.pageBytes p
  let frames := (s.groupPages p i g).map (fun k => (s.frameAddr p (s.rec_ (s.pd p k + 8) 0 32), n))
  let step := (s.pool p).closers.find? (65536 * i + g)
  s.sill.retired.all (fun e => !(step.isSome && e.prog == step) && !e.writes.any (fun w => frames.any (overlap w)))
    && !s.sill.lost.any (fun k => step == some k)

/-- Groups whose last token is written and has crossed the Sill enter FULL. -/
def State.fillGroups (s : State) : State :=
  ((upTo 3).flatMap (fun st => s.seqIn (st + 1))).foldl (fun s i =>
    let p := s.seqPart i
    if !s.poolOn p then s
    else (upTo (min (s.seqDone i / 4096) (s.gmax p + 1))).foldl (fun s g => if s.groupCrossed p i g then s.fullGroup p i g else s) s) s

/-- The granules whose first token a step of `n` tokens after the first `done` writes. -/
def newGranules (done n : Nat) : List Nat :=
  let first := ceilDiv done 4096
  (upTo (ceilDiv (done + n) 4096 - first)).map (first + ·)

/-- The groups of granules whose first token a listed step writes are mapped. -/
def State.mapGroups (s : State) : State :=
  s.turn.progs.foldl (fun s x => match x.2.src with
    | .step i =>
      let p := x.2.part
      if x.2.phase == .waiting && s.poolOn p then
        ((newGranules (s.seqDone i) x.2.tokens).filter (fun g => decide (g ≤ s.gmax p))).foldl (fun s g => s.mapGroup p i g) s
      else s
    | .turn _ _ => s) s

/-! ### Markers of the master (R27, R420) -/

/-- The master sends a marker on every port of MARKER_OUT. -/
def State.sendMarkers (s : State) : State :=
  if s.turn.role ≠ .master then s
  else
    let out := s.fld Reg.trnCtl 16 6
    (upTo 6).foldl (fun s k => if out.testBit k then s.sendMarker k s.turnNo s.turn.tick.toNat 0 s.myId s.linkTime else s) s

/-! ### The tick -/

/-- Capacity follows the cores that are present; a fall is noted with the turn that starts (R32, R46). -/
def State.capTick (s : State) : State :=
  let was := s.turn.capCount
  let now := s.presentCores
  let s := (s.setTurn { s.turn with capCount := now }).spindleTick
  if now < was then s.setTurn { s.turn with capFalls := s.turn.ticks :: s.turn.capFalls } else s

/-- Everything that a tick brings: what is left of the turn that ends; the Spindle; the scheduler; the engines that look
at every tick; the waits that it ends. -/
def State.tick (s : State) : State :=
  let s := (if s.turn.running then s.endTurn.retractLate else s).leaveAll.fillGroups
  let s := s.capTick.sendMarkers
  let s := (s.seqTick.startTurns.buildList.mapGroups).rollAll 1 none
  let s := s.ringTick.poolTick.groupTick.resTick.msgTick
  s.releaseAhead.releaseHolds.wakeTicks.leaveAll.collectAll

/-- TICK (R20). -/
def execTick (s : State) : Host.Outcome State Fault Refusal := if s.canTick then .next s.tick else .next s

end Sys2Proof.Machine
end

