-- ==== Sys2Proof/Machine/Cycle.lean ====
section
/-!
DEFINITION. Machine/Cycle.lean: one core cycle passes (R7, R221): what the machine counts in it.
-/
namespace Sys2Proof.Machine

/-- A stage of a class is running on the core that carries `l`. -/
def State.stageOn (s : State) (l cls : Nat) : Option StageRun := (s.running l cls).map (·.2)

/-- Whether the operand stage holds the array in this cycle (R107): that turns on the timing of the scratchpad, so it is open; it
holds only a tile step in progress. -/
def State.opndStall (s : State) (busy : Bool) : Bool := busy && (s.draw 1).toNat == 1

/-- SPD_CONFLICT and XFR_STALL_SLOT (R371, R389): how many requests of the engines of a core wait for a bank in this cycle, and whether
a transfer waits for a miss slot, turn on timing, so they are open. -/
def State.countXfer (s : State) (l i : Nat) (busy : Bool) : State :=
  let moving := (s.core l).running.any (fun r => isTransfer (Desc.cls r.cmd.desc))
  if !(busy || moving || (s.stageOn l 4).isSome) then s
  else
    let n := (s.draw 5).toNat
    let s := s.drew.bump (coreWin i + 0x1310) n
    if !moving then s else (s.drew).bump (coreWin i + 0x1314) (s.draw 1).toNat

/-- The cycle counters of one core's engines (R127, R132, R193, R197). -/
def State.countEngines (s : State) (l : Nat) : State :=
  match s.physOf l with
  | none => s
  | some i =>
    let w := coreWin i
    let p := s.phy i
    let add (b : Bool) (off : Nat) (s : State) : State := if b then s.bump (w + off) 1 else s
    let m := s.stageOn l 1
    let busy := (m.map (·.busy)).getD false
    let stall := s.opndStall busy
    let s := if busy then s.drew else s
    let s := if p.mxOpndWait = stall then s else s.setPhy i { p with mxOpndWait := stall }
    let s := add busy 0x1014 s
    let s := add stall 0x1018 s
    let s := add (m.isSome && p.mxHatchWait) 0x101C s
    let s := add ((m.isSome || (s.stageOn l 2).isSome) && p.mxAccWait) 0x1020 s
    let s := s.countXfer l i busy
    let v := (s.stageOn l 4).isSome || p.hatchWait || p.sinkWait
    let s := add v 0x1210 s
    let s := add (v && p.hatchWait) 0x1214 s
    add (v && p.sinkWait) 0x1218 s

/-- Commands of core `l` that the retention table alone keeps from starting (R515). -/
def State.heldBySill (s : State) (l : Nat) : Nat :=
  ((s.core l).queue.filter (fun c =>
    !(s.behind l c || s.displaced l c || (Desc.order c.desc && !s.oldest l c)) && s.depState l c == some true
      && s.engineFree l c && s.sillHolds l c)).length

/-- Partitions of which a controller holds a request that waits for tokens (R366). -/
def State.waitingParts (s : State) : List Nat :=
  (s.mc.reqs.flatMap (fun x => ((s.held x.1).filter (fun r => s.regulated r.part && !s.eligible x.1 r)).map (·.part))).eraseDups

/-- Matrix engines that throttling holds in this cycle of its 16 (R614). -/
def State.heldEngines (s : State) : Nat :=
  ((s.log.map (·.1)).filter (fun l => match s.physOf l with
    | some i => (s.stageOn l 1).isSome && decide (s.cycles % 16 ≥ s.duty (i / 17))
    | none => false)).length

/-- FLT_THR_CYC counts throttled core-cycles in units of 256 (R614). -/
def State.countThrottle (s : State) : State :=
  let n := s.flt.thrSub + s.heldEngines
  (s.setFlt { s.flt with thrSub := n % 256 }).bump Reg.fltThrCyc (n / 256)

/-- What is counted in a cycle: consumption of programs (R41), pauses on LIMIT (R483), engine and Sill waits, waits for
tokens, throttling. -/
def State.countCycle (s : State) : State :=
  let s := s.consumeCycle
  let s := ((s.host.queues.map (·.1)).filter s.limitPaused).foldl (fun s q => s.bump (hqBase q + 0x2C) 1) s
  let s := (s.log.map (·.1)).foldl (fun s l => s.countEngines l) s
  let s := s.bump Reg.silHold ((s.log.map (fun k => s.heldBySill k.1)).sum)
  let s := s.waitingParts.foldl (fun s p => s.bump (rglBase p + 0xC) 1) s
  s.countThrottle

/-- One core cycle of 1.25 ns passes. Without power on the die no clock runs (R577, R649). -/
def State.passCycle (s : State) : State :=
  if !s.start.input || s.start.dieOff then s
  else
    let s := s.countCycle
    let s := s.drew.upset (Config.upset s.drawn)
    { s with cycles := s.cycles + 1, now4 := s.now4 + 5 }.latchCycle.leaveAll.collectAll

end Sys2Proof.Machine
end

