-- ==== Sys2Proof/Machine/Replay.lean ====
section
/-!
DEFINITION. Machine/Replay.lean: the spare carries out replays (R519 to R522) and compares duplicates (R525).
-/
namespace Sys2Proof.Machine

/-- REPLAY_START (R519, R520, R522): the oldest replay starts, ahead of a duplicate, which is abandoned, and of a self-test,
which is queued again; a panel without a spare replays on the original core. -/
def execReplayStart (panel : Fin 8) (s : State) : Host.Outcome State Fault Refusal :=
  let p := panel.val
  match (s.spare p).queue with
  | [] => .next s
  | (l, id) :: rest =>
    let go (s : State) : State :=
      let s := s.setSpare p { work := .replay l id, queue := rest }
      let s := (s.bump Reg.silReplays 1).raise 3 0
      if s.dupEnt id then s else s.charge (s.under l)
    match (s.spare p).work with
    | .replay _ _ => .next s
    | .dup l' id' => .next (go (s.abandonDup l' id'))
    | .test q =>
      .next (go (((s.queueTest p q).setFld (Reg.silPanel p) 2 5 q).setFld (Reg.silPanel p) 7 5 0x1F))
    | .idle => .next (go s)

/-- Whether a command has work for the array. -/
def Cmd.usesArray (c : Cmd) : Bool := c.descs.any (fun d => Desc.cls d == 1 || Desc.cls d == 2)

/-- Runs the stages of a replayed CHAIN as far as they can go, the higher first (R259). `fuel` bounds the rounds of this. -/
def State.runChain (s : State) (l id : Nat) : Nat → State
  | 0 => s
  | fuel + 1 =>
    match s.runOf l id with
    | none => s
    | some r =>
      if r.done || r.replaying then s
      else
        let s' := (upTo r.stages.length).reverse.foldl (fun s k => s.runStage l id k) s
        if (s'.runOf l id).map (·.stages) = some r.stages then s' else s'.runChain l id fuel

/-- A stopped command is carried out again on the spare, from where its replay begins: a deterministic engine gives the same bits
(R519, R143). The replay stands for the command from here on; a check that fails now fails it (R521). -/
def State.resumeRun (s : State) (l : Nat) (r : Run) (err : Option ArrayErr) : State :=
  let s := s.rewindTile l r
  let r := { r with replaying := false, again := true }
  let s := s.setRun l r
  match Desc.cls r.cmd.desc with
  | 1 => s.runMma l r.cmd.id 0 (mmaSteps r.cmd.desc) err
  | 2 => s.runAttb l r err
  | 3 => s.runChain l r.cmd.id (16 * r.rounds)
  | 4 => s.runVop l r.cmd.id 0
  | _ => s

/-- Tiles of a command that wait for the replay of their chains (R150). -/
def State.redoOf (s : State) (l id : Nat) : List Redo := s.sill.redo.filter (fun x => x.core == l && x.id == id)

/-- REPLAY_COMPLETE (R521, R522, R525): the panel's replay is carried out and retires. A poisoned tile waits for its slot (R151). -/
def execReplayComplete (panel : Fin 8) (err : Option ArrayErr) (dup orig : Bool) (s : State) : Host.Outcome State Fault Refusal :=
  let p := panel.val
  match (s.spare p).work with
  | .replay l id =>
    let own := s.under l
    let done := s.setSpare p { s.spare p with work := .idle }
    if s.dupEnt id then .next (done.endDup p l id (if dup then 0 else if orig then 1 else 2))
    else
      let s := (done.redoOf l id).foldl (fun s x => s.refillTile x) done
      if !(s.redoOf l id).isEmpty then .next (s.setSpare p { s.spare p with work := .replay l id })
      else match s.runOf l id with
        | none => .next (s.judge own)
        | some r =>
          if !r.replaying then .next (s.judge own)
          else
            let ran := (s.spareOf p).getD own
            let hit := if r.cmd.usesArray then s.injected ran 0 else none
            let s := if hit.isSome then s.injectDone ran else s
            .next (((s.resumeRun l r (hit.orElse (fun _ => err))).judge ran).judge own)
  | _ => .next s

/-- DUPLICATE_COMPARE (R525): both runs of the panel's sampled command have retired. A command that retired with another
status than 0 has crossed, and there is nothing to compare. A duplicate that meets an injection of its core (R129) does not match. -/
def execDuplicateCompare (panel : Fin 8) (same : Bool) (s : State) : Host.Outcome State Fault Refusal :=
  let p := panel.val
  match (s.spare p).work with
  | .dup l id =>
    if (s.runOf l id).isSome then .next s
    else
      let s := s.setSpare p { s.spare p with work := .idle }
      match s.sill.retired.find? (fun e => e.id == id) with
      | none => .next s
      | some e =>
        let (hit, s) := match s.spareOf p with
          | some j => if e.engines.contains 0 then s.takeInject j else (false, s)
          | none => (false, s)
        let same := same && !hit
        let s := s.bump Reg.silDups 1
        let s := s.setSill { s.sill with retired := s.sill.retired.map (fun e => if e.id = id then { e with dup := false, replay := !same } else e) }
        if same then .next s
        else
          let x := s.spare p
          .next (((s.bump Reg.silDupMismatch 1).raise 3 2).setSpare p { x with queue := x.queue ++ [(l, id)] })
  | _ => .next s

end Sys2Proof.Machine
end

