-- ==== Sys2Proof/Machine/Dispatch.lean ====
section
/-! DEFINITION. Machine/Dispatch.lean: one arm per command. -/
namespace Sys2Proof.Machine
open Sys2Proof

def exec (i : Instr) (s : State) : Host.Outcome State Fault Refusal :=
  match i with
  | .tick => Sys2Proof.Machine.execTick s
  | .spindleEnable r v => Sys2Proof.Machine.execSpindleEnable r v s
  | .spindleDisable r v => Sys2Proof.Machine.execSpindleDisable r v s
  | .roleWrite r role => Sys2Proof.Machine.execRoleWrite r role s
  | .trnPeriodWrite r v => Sys2Proof.Machine.execTrnPeriodWrite r v s
  | .turnRefEdge interval => Sys2Proof.Machine.execTurnRefEdge interval s
  | .refEdgeTimeout => Sys2Proof.Machine.execRefEdgeTimeout s
  | .markerMiss => Sys2Proof.Machine.execMarkerMiss s
  | .costExceeded prog => Sys2Proof.Machine.execCostExceeded prog s
  | .cutover cls => Sys2Proof.Machine.execCutover cls s
  | .mainProgramStop prog => Sys2Proof.Machine.execMainProgramStop prog s
  | .fallbackOverrun prog => Sys2Proof.Machine.execFallbackOverrun prog s
  | .turnProgramComplete prog => Sys2Proof.Machine.execTurnProgramComplete prog s
  | .descriptorRead intake => Sys2Proof.Machine.execDescriptorRead intake s
  | .commandStart c tag => Sys2Proof.Machine.execCommandStart c tag s
  | .commandRetire c tag => Sys2Proof.Machine.execCommandRetire c tag s
  | .mma c tag => Sys2Proof.Machine.execMma c tag s
  | .attb c job => Sys2Proof.Machine.execAttb c job s
  | .chain c tag stage => Sys2Proof.Machine.execChain c tag stage s
  | .vop c tag => Sys2Proof.Machine.execVop c tag s
  | .red c tag => Sys2Proof.Machine.execRed c tag s
  | .xfer c tag => Sys2Proof.Machine.execXfer c tag s
  | .xferVerify c tag => Sys2Proof.Machine.execXferVerify c tag s
  | .gath c tag => Sys2Proof.Machine.execGath c tag s
  | .scat c tag => Sys2Proof.Machine.execScat c tag s
  | .yield c tag => Sys2Proof.Machine.execYield c tag s
  | .turn q slot desc => Sys2Proof.Machine.execTurn q slot desc s
  | .tileStepStart c stage => Sys2Proof.Machine.execTileStepStart c stage s
  | .tileStepComplete c err => Sys2Proof.Machine.execTileStepComplete c err s
  | .hatchOrphan c => Sys2Proof.Machine.execHatchOrphan c s
  | .redTimeout module rid => Sys2Proof.Machine.execRedTimeout module rid s
  | .treeNodeCombine module rid shard level lo miss => Sys2Proof.Machine.execTreeNodeCombine module rid shard level lo miss s
  | .mxeInject r q v => Sys2Proof.Machine.execMxeInject r q v s
  | .vnop c ins => Sys2Proof.Machine.execVnop c ins s
  | .vend c ins => Sys2Proof.Machine.execVend c ins s
  | .vsetvl c ins => Sys2Proof.Machine.execVsetvl c ins s
  | .vpass c ins => Sys2Proof.Machine.execVpass c ins s
  | .vadd c ins => Sys2Proof.Machine.execVadd c ins s
  | .vsub c ins => Sys2Proof.Machine.execVsub c ins s
  | .vmul c ins => Sys2Proof.Machine.execVmul c ins s
  | .vmax c ins => Sys2Proof.Machine.execVmax c ins s
  | .vmin c ins => Sys2Proof.Machine.execVmin c ins s
  | .vabs c ins => Sys2Proof.Machine.execVabs c ins s
  | .vneg c ins => Sys2Proof.Machine.execVneg c ins s
  | .vscl2 c ins => Sys2Proof.Machine.execVscl2 c ins s
  | .vcmp c ins => Sys2Proof.Machine.execVcmp c ins s
  | .vsel c ins => Sys2Proof.Machine.execVsel c ins s
  | .vcvt c ins => Sys2Proof.Machine.execVcvt c ins s
  | .vand c ins => Sys2Proof.Machine.execVand c ins s
  | .vor c ins => Sys2Proof.Machine.execVor c ins s
  | .vxor c ins => Sys2Proof.Machine.execVxor c ins s
  | .vfma c ins => Sys2Proof.Machine.execVfma c ins s
  | .vdiv c ins => Sys2Proof.Machine.execVdiv c ins s
  | .vsqrt c ins => Sys2Proof.Machine.execVsqrt c ins s
  | .vrsq c ins => Sys2Proof.Machine.execVrsq c ins s
  | .vexp2 c ins => Sys2Proof.Machine.execVexp2 c ins s
  | .vred c ins => Sys2Proof.Machine.execVred c ins s
  | .vtop8 c ins => Sys2Proof.Machine.execVtop8 c ins s
  | .vsum c ins => Sys2Proof.Machine.execVsum c ins s
  | .vperm c ins => Sys2Proof.Machine.execVperm c ins s
  | .vrev c ins => Sys2Proof.Machine.execVrev c ins s
  | .vrot c ins => Sys2Proof.Machine.execVrot c ins s
  | .vzip c ins => Sys2Proof.Machine.execVzip c ins s
  | .vdrn c ins => Sys2Proof.Machine.execVdrn c ins s
  | .vpop c ins => Sys2Proof.Machine.execVpop c ins s
  | .vld c ins => Sys2Proof.Machine.execVld c ins s
  | .vst c ins => Sys2Proof.Machine.execVst c ins s
  | .add c t g gd ga gb => Sys2Proof.Machine.execAdd c t g gd ga gb s
  | .sub c t g gd ga gb => Sys2Proof.Machine.execSub c t g gd ga gb s
  | .and c t g gd ga gb => Sys2Proof.Machine.execAnd c t g gd ga gb s
  | .or c t g gd ga gb => Sys2Proof.Machine.execOr c t g gd ga gb s
  | .xor c t g gd ga gb => Sys2Proof.Machine.execXor c t g gd ga gb s
  | .shl c t g gd ga gb => Sys2Proof.Machine.execShl c t g gd ga gb s
  | .shr c t g gd ga gb => Sys2Proof.Machine.execShr c t g gd ga gb s
  | .sar c t g gd ga gb => Sys2Proof.Machine.execSar c t g gd ga gb s
  | .mul c t g gd ga gb => Sys2Proof.Machine.execMul c t g gd ga gb s
  | .mulhu c t g gd ga gb => Sys2Proof.Machine.execMulhu c t g gd ga gb s
  | .mulh c t g gd ga gb => Sys2Proof.Machine.execMulh c t g gd ga gb s
  | .divu c t g gd ga gb => Sys2Proof.Machine.execDivu c t g gd ga gb s
  | .remu c t g gd ga gb => Sys2Proof.Machine.execRemu c t g gd ga gb s
  | .div c t g gd ga gb => Sys2Proof.Machine.execDiv c t g gd ga gb s
  | .rem c t g gd ga gb => Sys2Proof.Machine.execRem c t g gd ga gb s
  | .min c t g gd ga gb => Sys2Proof.Machine.execMin c t g gd ga gb s
  | .max c t g gd ga gb => Sys2Proof.Machine.execMax c t g gd ga gb s
  | .minu c t g gd ga gb => Sys2Proof.Machine.execMinu c t g gd ga gb s
  | .maxu c t g gd ga gb => Sys2Proof.Machine.execMaxu c t g gd ga gb s
  | .clz c t g gd ga gb => Sys2Proof.Machine.execClz c t g gd ga gb s
  | .popc c t g gd ga gb => Sys2Proof.Machine.execPopc c t g gd ga gb s
  | .ptog c t g gd ga gb => Sys2Proof.Machine.execPtog c t g gd ga gb s
  | .gtop c t g gd ga gb => Sys2Proof.Machine.execGtop c t g gd ga gb s
  | .addi c t g gd ga imm => Sys2Proof.Machine.execAddi c t g gd ga imm s
  | .andi c t g gd ga imm => Sys2Proof.Machine.execAndi c t g gd ga imm s
  | .ori c t g gd ga imm => Sys2Proof.Machine.execOri c t g gd ga imm s
  | .xori c t g gd ga imm => Sys2Proof.Machine.execXori c t g gd ga imm s
  | .shi c t g gd ga imm => Sys2Proof.Machine.execShi c t g gd ga imm s
  | .lim c t g gd imm => Sys2Proof.Machine.execLim c t g gd imm s
  | .lsh c t g gd imm => Sys2Proof.Machine.execLsh c t g gd imm s
  | .cmp c t g pd cb ga gb fn => Sys2Proof.Machine.execCmp c t g pd cb ga gb fn s
  | .cmpi c t g pd cb ga cond imm => Sys2Proof.Machine.execCmpi c t g pd cb ga cond imm s
  | .plog c t g pd pa pb low => Sys2Proof.Machine.execPlog c t g pd pa pb low s
  | .ldb c t g gd ga imm => Sys2Proof.Machine.execLdb c t g gd ga imm s
  | .ldh c t g gd ga imm => Sys2Proof.Machine.execLdh c t g gd ga imm s
  | .ldw c t g gd ga imm => Sys2Proof.Machine.execLdw c t g gd ga imm s
  | .ldws c t g gd ga imm => Sys2Proof.Machine.execLdws c t g gd ga imm s
  | .ldd c t g gd ga imm => Sys2Proof.Machine.execLdd c t g gd ga imm s
  | .ldwx c t g gd ga imm => Sys2Proof.Machine.execLdwx c t g gd ga imm s
  | .lddx c t g gd ga imm => Sys2Proof.Machine.execLddx c t g gd ga imm s
  | .stb c t g gs ga imm => Sys2Proof.Machine.execStb c t g gs ga imm s
  | .sth c t g gs ga imm => Sys2Proof.Machine.execSth c t g gs ga imm s
  | .stw c t g gs ga imm => Sys2Proof.Machine.execStw c t g gs ga imm s
  | .std c t g gs ga imm => Sys2Proof.Machine.execStd c t g gs ga imm s
  | .stwx c t g gs ga imm => Sys2Proof.Machine.execStwx c t g gs ga imm s
  | .stdx c t g gs ga imm => Sys2Proof.Machine.execStdx c t g gs ga imm s
  | .loadReturn c t => Sys2Proof.Machine.execLoadReturn c t s
  | .amoSwap c t g w32 gd ga gb => Sys2Proof.Machine.execAmoSwap c t g w32 gd ga gb s
  | .amoAdd c t g w32 gd ga gb => Sys2Proof.Machine.execAmoAdd c t g w32 gd ga gb s
  | .amoAnd c t g w32 gd ga gb => Sys2Proof.Machine.execAmoAnd c t g w32 gd ga gb s
  | .amoOr c t g w32 gd ga gb => Sys2Proof.Machine.execAmoOr c t g w32 gd ga gb s
  | .amoXor c t g w32 gd ga gb => Sys2Proof.Machine.execAmoXor c t g w32 gd ga gb s
  | .amoMaxu c t g w32 gd ga gb => Sys2Proof.Machine.execAmoMaxu c t g w32 gd ga gb s
  | .amoMinu c t g w32 gd ga gb => Sys2Proof.Machine.execAmoMinu c t g w32 gd ga gb s
  | .amoMax c t g w32 gd ga gb => Sys2Proof.Machine.execAmoMax c t g w32 gd ga gb s
  | .amoMin c t g w32 gd ga gb => Sys2Proof.Machine.execAmoMin c t g w32 gd ga gb s
  | .amoCas c t g w32 gd ga gb => Sys2Proof.Machine.execAmoCas c t g w32 gd ga gb s
  | .fenceP c t g => Sys2Proof.Machine.execFenceP c t g s
  | .fenceM c t g => Sys2Proof.Machine.execFenceM c t g s
  | .fenceT c t g => Sys2Proof.Machine.execFenceT c t g s
  | .fenceI c t g => Sys2Proof.Machine.execFenceI c t g s
  | .brl c t g gd off => Sys2Proof.Machine.execBrl c t g gd off s
  | .jr c t g gd ga fn => Sys2Proof.Machine.execJr c t g gd ga fn s
  | .tcmd c t g gd ga imm => Sys2Proof.Machine.execTcmd c t g gd ga imm s
  | .twait c t g gd ga imm => Sys2Proof.Machine.execTwait c t g gd ga imm s
  | .rdsum c t g gd imm => Sys2Proof.Machine.execRdsum c t g gd imm s
  | .rdflg c t g gd imm => Sys2Proof.Machine.execRdflg c t g gd imm s
  | .mfs c t g gd imm => Sys2Proof.Machine.execMfs c t g gd imm s
  | .pause c t g ga imm => Sys2Proof.Machine.execPause c t g ga imm s
  | .wtick c t g ga => Sys2Proof.Machine.execWtick c t g ga s
  | .trap c t g imm => Sys2Proof.Machine.execTrap c t g imm s
  | .halt c t g => Sys2Proof.Machine.execHalt c t g s
  | .threadRun r q t => Sys2Proof.Machine.execThreadRun r q t s
  | .threadStop r q t => Sys2Proof.Machine.execThreadStop r q t s
  | .codeInv r q => Sys2Proof.Machine.execCodeInv r q s
  | .codeInvDone q => Sys2Proof.Machine.execCodeInvDone q s
  | .ringArm w r => Sys2Proof.Machine.execRingArm w r s
  | .ringAbort w r => Sys2Proof.Machine.execRingAbort w r s
  | .hopStart r => Sys2Proof.Machine.execHopStart r s
  | .ringStall r => Sys2Proof.Machine.execRingStall r s
  | .ring p vc => Sys2Proof.Machine.execRing p vc s
  | .credit p vc => Sys2Proof.Machine.execCredit p vc s
  | .poolEnable w p v => Sys2Proof.Machine.execPoolEnable w p v s
  | .kick w p => Sys2Proof.Machine.execKick w p s
  | .lookup p => Sys2Proof.Machine.execLookup p s
  | .attach p => Sys2Proof.Machine.execAttach p s
  | .insert p => Sys2Proof.Machine.execInsert p s
  | .release p => Sys2Proof.Machine.execRelease p s
  | .pin p => Sys2Proof.Machine.execPin p s
  | .unpin p => Sys2Proof.Machine.execUnpin p s
  | .prefetch p => Sys2Proof.Machine.execPrefetch p s
  | .flush p => Sys2Proof.Machine.execFlush p s
  | .spillComplete p page => Sys2Proof.Machine.execSpillComplete p page s
  | .returnComplete p page => Sys2Proof.Machine.execReturnComplete p page s
  | .groupEnable w g v => Sys2Proof.Machine.execGroupEnable w g v s
  | .groupDisable w g v => Sys2Proof.Machine.execGroupDisable w g v s
  | .groupArm w g v => Sys2Proof.Machine.execGroupArm w g v s
  | .groupDisarm w g v => Sys2Proof.Machine.execGroupDisarm w g v s
  | .groupAbort w g v => Sys2Proof.Machine.execGroupAbort w g v s
  | .shardStall g inst => Sys2Proof.Machine.execShardStall g inst s
  | .nextEpochHoldExpiry g => Sys2Proof.Machine.execNextEpochHoldExpiry g s
  | .hbmRequestServe pc bank errs => Sys2Proof.Machine.execHbmRequestServe pc bank errs s
  | .scrubRead errs => Sys2Proof.Machine.execScrubRead errs s
  | .lineSpareTrained pc => Sys2Proof.Machine.execLineSpareTrained pc s
  | .regionEnable w ix => Sys2Proof.Machine.execRegionEnable w ix s
  | .linkEnable r p v => Sys2Proof.Machine.execLinkEnable r p v s
  | .linkDisable r p v => Sys2Proof.Machine.execLinkDisable r p v s
  | .retrain r p => Sys2Proof.Machine.execRetrain r p s
  | .forceDown r p => Sys2Proof.Machine.execForceDown r p s
  | .calibrationComplete p ok => Sys2Proof.Machine.execCalibrationComplete p ok s
  | .partnerLock p lanes => Sys2Proof.Machine.execPartnerLock p lanes s
  | .trainingComplete p ok full screen peerFailed info sizes peerGen delay => Sys2Proof.Machine.execTrainingComplete p ok full screen peerFailed info sizes peerGen delay s
  | .frameReceive p ctl flits errs => Sys2Proof.Machine.execFrameReceive p ctl flits errs s
  | .heartbeatMiss p => Sys2Proof.Machine.execHeartbeatMiss p s
  | .retryTimeout p => Sys2Proof.Machine.execRetryTimeout p s
  | .holdoffExpiry p => Sys2Proof.Machine.execHoldoffExpiry p s
  | .laneLockLoss p lane => Sys2Proof.Machine.execLaneLockLoss p lane s
  | .laneErrorWindow p => Sys2Proof.Machine.execLaneErrorWindow p s
  | .msgEnable w v => Sys2Proof.Machine.execMsgEnable w v s
  | .windowEnable w n v => Sys2Proof.Machine.execWindowEnable w n v s
  | .transitForward p vc => Sys2Proof.Machine.execTransitForward p vc s
  | .write p vc => Sys2Proof.Machine.execWrite p vc s
  | .gather p vc => Sys2Proof.Machine.execGather p vc s
  | .tree p vc => Sys2Proof.Machine.execTree p vc s
  | .done p vc => Sys2Proof.Machine.execDone p vc s
  | .unreach p vc => Sys2Proof.Machine.execUnreach p vc s
  | .confirm p vc => Sys2Proof.Machine.execConfirm p vc s
  | .retract p vc => Sys2Proof.Machine.execRetract p vc s
  | .read p vc => Sys2Proof.Machine.execRead p vc s
  | .reassemblyStall src mtag => Sys2Proof.Machine.execReassemblyStall src mtag s
  | .tombstoneExpiry src mtag => Sys2Proof.Machine.execTombstoneExpiry src mtag s
  | .msgTimeout mtag => Sys2Proof.Machine.execMsgTimeout mtag s
  | .provExpired src mtag => Sys2Proof.Machine.execProvExpired src mtag s
  | .sqTail p q v => Sys2Proof.Machine.execSqTail p q v s
  | .cqHead p q v => Sys2Proof.Machine.execCqHead p q v s
  | .queueEnable r q v => Sys2Proof.Machine.execQueueEnable r q v s
  | .queueDisable r q v => Sys2Proof.Machine.execQueueDisable r q v s
  | .coalesceTimeout q => Sys2Proof.Machine.execCoalesceTimeout q s
  | .msixVectorUnmask p v => Sys2Proof.Machine.execMsixVectorUnmask p v s
  | .msixRouteWrite r k v => Sys2Proof.Machine.execMsixRouteWrite r k v s
  | .hostPortReset p => Sys2Proof.Machine.execHostPortReset p s
  | .functionLevelReset p => Sys2Proof.Machine.execFunctionLevelReset p s
  | .d3hotEntry p => Sys2Proof.Machine.execD3hotEntry p s
  | .perstN p => Sys2Proof.Machine.execPerstN p s
  | .configurationRequest p reg wr => Sys2Proof.Machine.execConfigurationRequest p reg wr s
  | .bar2Read p off len => Sys2Proof.Machine.execBar2Read p off len s
  | .bar2Write p off data => Sys2Proof.Machine.execBar2Write p off data s
  | .bar2Atomic p off op w64 a b => Sys2Proof.Machine.execBar2Atomic p off op w64 a b s
  | .activate r ix => Sys2Proof.Machine.execActivate r ix s
  | .retire r ix => Sys2Proof.Machine.execRetire r ix s
  | .tokensWrite w ix v => Sys2Proof.Machine.execTokensWrite w ix v s
  | .stepCoreAssign ix => Sys2Proof.Machine.execStepCoreAssign ix s
  | .preemptSave c => Sys2Proof.Machine.execPreemptSave c s
  | .saveComplete c => Sys2Proof.Machine.execSaveComplete c s
  | .restore c => Sys2Proof.Machine.execRestore c s
  | .restoreComplete c => Sys2Proof.Machine.execRestoreComplete c s
  | .stepComplete ix => Sys2Proof.Machine.execStepComplete ix s
  | .sillCrossing id => Sys2Proof.Machine.execSillCrossing id s
  | .replayStart panel => Sys2Proof.Machine.execReplayStart panel s
  | .replayComplete panel err dup orig => Sys2Proof.Machine.execReplayComplete panel err dup orig s
  | .duplicateCompare panel same => Sys2Proof.Machine.execDuplicateCompare panel same s
  | .sillWait c tag => Sys2Proof.Machine.execSillWait c tag s
  | .sillStep c tag => Sys2Proof.Machine.execSillStep c tag s
  | .ready p vc => Sys2Proof.Machine.execReady p vc s
  | .commit p vc => Sys2Proof.Machine.execCommit p vc s
  | .stepChildTimeout j => Sys2Proof.Machine.execStepChildTimeout j s
  | .stepCommitTimeout j => Sys2Proof.Machine.execStepCommitTimeout j s
  | .resolve w j v => Sys2Proof.Machine.execResolve w j v s
  | .rollingTestStart panel => Sys2Proof.Machine.execRollingTestStart panel s
  | .rollingTestComplete panel pass => Sys2Proof.Machine.execRollingTestComplete panel pass s
  | .testRequest r panel v => Sys2Proof.Machine.execTestRequest r panel v s
  | .shutterEnable w ix v => Sys2Proof.Machine.execShutterEnable w ix v s
  | .shutterDisable w ix v => Sys2Proof.Machine.execShutterDisable w ix v s
  | .begin_ c tag => Sys2Proof.Machine.execBegin_ c tag s
  | .capture c tag => Sys2Proof.Machine.execCapture c tag s
  | .send_ c tag => Sys2Proof.Machine.execSend_ c tag s
  | .serve c tag => Sys2Proof.Machine.execServe c tag s
  | .stream c tag => Sys2Proof.Machine.execStream c tag s
  | .inputGood h0Ref sbRef as => Sys2Proof.Machine.execInputGood h0Ref sbRef as s
  | .pwrEnLow => Sys2Proof.Machine.execPwrEnLow s
  | .inputUndervoltage => Sys2Proof.Machine.execInputUndervoltage s
  | .modResetPulse as => Sys2Proof.Machine.execModResetPulse as s
  | .startStepTimeout as => Sys2Proof.Machine.execStartStepTimeout as s
  | .coldRetryDelay as => Sys2Proof.Machine.execColdRetryDelay as s
  | .warmRestartRequest r c as => Sys2Proof.Machine.execWarmRestartRequest r c as s
  | .coldRestartRequest r c as => Sys2Proof.Machine.execColdRestartRequest r c as s
  | .loadJoineryImage p => Sys2Proof.Machine.execLoadJoineryImage p s
  | .loadConfigurationRecord p => Sys2Proof.Machine.execLoadConfigurationRecord p s
  | .recColdStart p as => Sys2Proof.Machine.execRecColdStart p as s
  | .mbxGo r k => Sys2Proof.Machine.execMbxGo r k s
  | .mbxAck r k => Sys2Proof.Machine.execMbxAck r k s
  | .report => Sys2Proof.Machine.execReport s
  | .repair flashOk => Sys2Proof.Machine.execRepair flashOk s
  | .stageImage flashOk cut => Sys2Proof.Machine.execStageImage flashOk cut s
  | .getCert => Sys2Proof.Machine.execGetCert s
  | .getVersion c => Sys2Proof.Machine.execGetVersion c s
  | .getCapabilities c => Sys2Proof.Machine.execGetCapabilities c s
  | .negotiateAlgorithms c => Sys2Proof.Machine.execNegotiateAlgorithms c s
  | .getDigests c => Sys2Proof.Machine.execGetDigests c s
  | .getCertificate c slot off len => Sys2Proof.Machine.execGetCertificate c slot off len s
  | .challenge c slot nonce => Sys2Proof.Machine.execChallenge c slot nonce s
  | .getMeasurements c index signed nonce => Sys2Proof.Machine.execGetMeasurements c index signed nonce s
  | .spdmUnsupported c code => Sys2Proof.Machine.execSpdmUnsupported c code s
  | .setEndpointId b eid => Sys2Proof.Machine.execSetEndpointId b eid s
  | .entdaa addr => Sys2Proof.Machine.execEntdaa addr s
  | .setdasa static addr => Sys2Proof.Machine.execSetdasa static addr s
  | .getTid c => Sys2Proof.Machine.execGetTid c s
  | .setTid c tid => Sys2Proof.Machine.execSetTid c tid s
  | .getPldmVersion c type => Sys2Proof.Machine.execGetPldmVersion c type s
  | .getPldmTypes c => Sys2Proof.Machine.execGetPldmTypes c s
  | .getPldmCommands c type => Sys2Proof.Machine.execGetPldmCommands c type s
  | .getPdr c handle => Sys2Proof.Machine.execGetPdr c handle s
  | .getPdrRepositoryInfo c => Sys2Proof.Machine.execGetPdrRepositoryInfo c s
  | .getSensorReading c sensor => Sys2Proof.Machine.execGetSensorReading c sensor s
  | .getStateSensorReadings c sensor => Sys2Proof.Machine.execGetStateSensorReadings c sensor s
  | .getSensorThresholds c sensor => Sys2Proof.Machine.execGetSensorThresholds c sensor s
  | .setSensorThresholds c sensor set => Sys2Proof.Machine.execSetSensorThresholds c sensor set s
  | .setEventReceiver c enable => Sys2Proof.Machine.execSetEventReceiver c enable s
  | .pldmFirmwareUpdate c op => Sys2Proof.Machine.execPldmFirmwareUpdate c op s
  | .pldmUnsupported c type cmd => Sys2Proof.Machine.execPldmUnsupported c type cmd s
  | .sensorUpdate id v => Sys2Proof.Machine.execSensorUpdate id v s
  | .dutyStep p => Sys2Proof.Machine.execDutyStep p s
  | .faultCopyToFlash => Sys2Proof.Machine.execFaultCopyToFlash s
  | .fltClearPair r c => Sys2Proof.Machine.execFltClearPair r c s
  | .latchStrobe r m => Sys2Proof.Machine.execLatchStrobe r m s
  | .latchTickArm r m => Sys2Proof.Machine.execLatchTickArm r m s
  | .deadboltValueWrite r reg v => Sys2Proof.Machine.execDeadboltValueWrite r reg v s
  | .deadboltLate => Sys2Proof.Machine.execDeadboltLate s
  | .trnPeriodPair r c => Sys2Proof.Machine.execTrnPeriodPair r c s
  | .memPartOwnPair r p c => Sys2Proof.Machine.execMemPartOwnPair r p c s
  | .memRangePair r j c => Sys2Proof.Machine.execMemRangePair r j c s
  | .hqOwnPair r g c => Sys2Proof.Machine.execHqOwnPair r g c s
  | .lchOwnPair r c => Sys2Proof.Machine.execLchOwnPair r c s
  | .secLockPair r c => Sys2Proof.Machine.execSecLockPair r c s
  | .registerWrite r off v => Sys2Proof.Machine.execRegisterWrite r off v s
  | .rcRead r off => Sys2Proof.Machine.execRcRead r off s
  | .loCaptureRead r off => Sys2Proof.Machine.execLoCaptureRead r off s
  | .refclockLoss sb => Sys2Proof.Machine.execRefclockLoss sb s
  | .refclockReturn sb => Sys2Proof.Machine.execRefclockReturn sb s
  | .frameTransmit p => Sys2Proof.Machine.execFrameTransmit p s
  | .pauseExpiry c t => Sys2Proof.Machine.execPauseExpiry c t s
  | .storeReachesPanelCache c t => Sys2Proof.Machine.execStoreReachesPanelCache c t s
  | .hostDmaCompletion tag status data => Sys2Proof.Machine.execHostDmaCompletion tag status data s
  | .completionTimeout tag => Sys2Proof.Machine.execCompletionTimeout tag s
  | .mctpTypeUnsupported b type => Sys2Proof.Machine.execMctpTypeUnsupported b type s

end Sys2Proof.Machine
end

