-- ==== Sys2Proof/Machine/Encoding.lean ====
section
/-!
DEFINITION. Machine/Encoding.lean: the 32-bit words of the Krarn scalar instructions (R209 to R214): what a word that a thread
fetches stands for.
-/
namespace Sys2Proof.Machine

/-- What a word stands for. -/
inductive Scalar where
  | instr (i : Instr)
  /-- an operation code that R211 does not list: ILLEGAL whatever the guard (R202) -/
  | reservedOp
  /-- a reserved function code or fence kind of a listed operation (R206, R212, R214): ILLEGAL where the guard holds -/
  | reserved
  deriving DecidableEq, Repr

/-! ### Fields (R209, R210) -/

def wordGuard (w : Word) : Guard := { pg := Fin.ofNat 8 (bits w 29 3), pn := bit w 28 }
def wordOp (w : Word) : Nat := bits w 22 6
/-- The register in bits [lo + 4 : lo]: GD or GS at 17, GA at 12, GB at 7. -/
def wordReg (w : Word) (lo : Nat) : Fin 32 := Fin.ofNat 32 (bits w lo 5)
/-- The predicate in bits [lo + 2 : lo]: PD at 19, PA at 16, PB at 13. -/
def wordPred (w : Word) (lo : Nat) : Fin 8 := Fin.ofNat 8 (bits w lo 3)

/-! ### Operations (R211, R212, R214) -/

/-- ALU by its function code (R212). -/
def decodeAlu (c : Fin 128) (t : Fin 8) (g : Guard) (gd ga gb : Fin 32) (fn : Nat) : Scalar :=
  match fn with
  | 0x00 => .instr (.add c t g gd ga gb)
  | 0x01 => .instr (.sub c t g gd ga gb)
  | 0x02 => .instr (.and c t g gd ga gb)
  | 0x03 => .instr (.or c t g gd ga gb)
  | 0x04 => .instr (.xor c t g gd ga gb)
  | 0x05 => .instr (.shl c t g gd ga gb)
  | 0x06 => .instr (.shr c t g gd ga gb)
  | 0x07 => .instr (.sar c t g gd ga gb)
  | 0x08 => .instr (.mul c t g gd ga gb)
  | 0x09 => .instr (.mulhu c t g gd ga gb)
  | 0x0A => .instr (.mulh c t g gd ga gb)
  | 0x0B => .instr (.divu c t g gd ga gb)
  | 0x0C => .instr (.remu c t g gd ga gb)
  | 0x0D => .instr (.div c t g gd ga gb)
  | 0x0E => .instr (.rem c t g gd ga gb)
  | 0x0F => .instr (.min c t g gd ga gb)
  | 0x10 => .instr (.max c t g gd ga gb)
  | 0x11 => .instr (.minu c t g gd ga gb)
  | 0x12 => .instr (.maxu c t g gd ga gb)
  | 0x13 => .instr (.clz c t g gd ga gb)
  | 0x14 => .instr (.popc c t g gd ga gb)
  | 0x15 => .instr (.ptog c t g gd ga gb)
  | 0x16 => .instr (.gtop c t g gd ga gb)
  | _ => .reserved

/-- AMO by FN [5:0]; FN [6] selects 32 bits (R214). -/
def decodeAmo (c : Fin 128) (t : Fin 8) (g : Guard) (gd ga gb : Fin 32) (fn : BitVec 7) : Scalar :=
  let n := bit fn 6
  match bits fn 0 6 with
  | 0 => .instr (.amoSwap c t g n gd ga gb)
  | 1 => .instr (.amoAdd c t g n gd ga gb)
  | 2 => .instr (.amoAnd c t g n gd ga gb)
  | 3 => .instr (.amoOr c t g n gd ga gb)
  | 4 => .instr (.amoXor c t g n gd ga gb)
  | 5 => .instr (.amoMaxu c t g n gd ga gb)
  | 6 => .instr (.amoMinu c t g n gd ga gb)
  | 7 => .instr (.amoMax c t g n gd ga gb)
  | 8 => .instr (.amoMin c t g n gd ga gb)
  | 9 => .instr (.amoCas c t g n gd ga gb)
  | _ => .reserved

/-- FENCE by its kind (R206). -/
def decodeFence (c : Fin 128) (t : Fin 8) (g : Guard) (kind : Nat) : Scalar :=
  match kind with
  | 0 => .instr (.fenceP c t g)
  | 1 => .instr (.fenceM c t g)
  | 2 => .instr (.fenceT c t g)
  | 3 => .instr (.fenceI c t g)
  | _ => .reserved

/-- The instruction that a word is for thread `t` of core `c` (R211). -/
def decodeScalar (c : Fin 128) (t : Fin 8) (w : Word) : Scalar :=
  let g := wordGuard w
  let gd := wordReg w 17
  let ga := wordReg w 12
  let gb := wordReg w 7
  let fn : BitVec 7 := w.extractLsb' 0 7
  let imm : BitVec 12 := w.extractLsb' 0 12
  let imm17 : BitVec 17 := w.extractLsb' 0 17
  let pd := wordPred w 19
  let cb : BitVec 2 := w.extractLsb' 17 2
  match wordOp w with
  | 0x00 => decodeAlu c t g gd ga gb fn.toNat
  | 0x01 => .instr (.addi c t g gd ga imm)
  | 0x02 => .instr (.andi c t g gd ga imm)
  | 0x03 => .instr (.ori c t g gd ga imm)
  | 0x04 => .instr (.xori c t g gd ga imm)
  | 0x05 => .instr (.shi c t g gd ga imm)
  | 0x06 => .instr (.lim c t g gd imm17)
  | 0x07 => .instr (.lsh c t g gd imm17)
  | 0x08 => .instr (.cmp c t g pd cb ga gb fn)
  | 0x09 => .instr (.cmpi c t g pd cb ga (w.extractLsb' 8 4) (w.extractLsb' 0 8))
  | 0x0A => .instr (.plog c t g pd (wordPred w 16) (wordPred w 13) (w.extractLsb' 0 13))
  | 0x10 => .instr (.ldb c t g gd ga imm)
  | 0x11 => .instr (.ldh c t g gd ga imm)
  | 0x12 => .instr (.ldw c t g gd ga imm)
  | 0x13 => .instr (.ldws c t g gd ga imm)
  | 0x14 => .instr (.ldd c t g gd ga imm)
  | 0x15 => .instr (.ldwx c t g gd ga imm)
  | 0x16 => .instr (.lddx c t g gd ga imm)
  | 0x18 => .instr (.stb c t g gd ga imm)
  | 0x19 => .instr (.sth c t g gd ga imm)
  | 0x1A => .instr (.stw c t g gd ga imm)
  | 0x1B => .instr (.std c t g gd ga imm)
  | 0x1C => .instr (.stwx c t g gd ga imm)
  | 0x1D => .instr (.stdx c t g gd ga imm)
  | 0x20 => decodeAmo c t g gd ga gb fn
  | 0x21 => decodeFence c t g (bits imm 0 3)
  | 0x28 => .instr (.brl c t g gd imm17)
  | 0x29 => .instr (.jr c t g gd ga fn)
  | 0x30 => .instr (.tcmd c t g gd ga imm)
  | 0x31 => .instr (.twait c t g gd ga imm)
  | 0x32 => .instr (.rdsum c t g gd imm)
  | 0x33 => .instr (.rdflg c t g gd imm)
  | 0x34 => .instr (.mfs c t g gd imm)
  | 0x36 => .instr (.pause c t g ga imm)
  | 0x37 => .instr (.wtick c t g ga)
  | 0x38 => .instr (.trap c t g imm)
  | 0x39 => .instr (.halt c t g)
  | _ => .reservedOp

end Sys2Proof.Machine
end

