-- ==== Sys2Proof/Machine/FrontEnd.lean ====
section
/-!
DEFINITION. Machine/FrontEnd.lean: the cycle in which no command comes: the cores fetch and issue their threads' instructions
(R200 to R203, R209).
-/
namespace Sys2Proof.Machine

/-- The thread from which core `l` issues next: round-robin, from the one after the thread that issued last (R201). -/
def State.nextThread (s : State) (l : Nat) : Option Nat :=
  ((upTo 8).map (fun k => ((s.core l).lastThread.val + 1 + k) % 8)).find? (fun t => s.issues l t)

/-- An instruction that has no encoding issues, and raises ILLEGAL (R202, R223). -/
def State.reservedCode (s : State) (l t op : Nat) : State :=
  match s.accessFault (s.thread l t).part.toNat (s.thread l t).pc.toNat 4 false with
  | some cause => s.except l t cause 0 (some (s.thread l t).pc.toNat)
  | none => (s.issue l t).illegal l t op

/-- Thread `t` of core `l` issues the instruction `w`. -/
def State.runWord (s : State) (l t : Nat) (w : Word) : State :=
  match decodeScalar (Fin.ofNat 128 l) (Fin.ofNat 8 t) w with
  | .reservedOp => s.reservedCode l t (wordOp w)
  | .reserved => s.scalar l t (wordGuard w) (fun _ s => s.illegal l t (wordOp w))
  | .instr i =>
    match exec i s with
    | .next u => u
    | _ => s

/-- Core `l` issues at most one instruction in a cycle (R201): it fetches the line at the program counter of the thread that is
next; a line that its instruction cache does not hold makes the thread wait (R200). -/
def State.issueNext (s : State) (l : Nat) : State :=
  match s.nextThread l with
  | none => s
  | some t =>
    let x := s.thread l t
    let a := x.pc.toNat
    match s.accessFault x.part.toNat a 4 false with
    | some cause => s.except l t cause 0 (some a)
    | none =>
      match s.instLine l (a / 64) with
      | (none, s) => s.startAccess l t a .fetch true
      | (some d, s) => s.runWord l t (BitVec.ofNat 32 (lineVal d a 4))

/-- A core cycle in which no command comes (R7, R201), after what occurred in the cycle before it has taken its entries in the fault
record (R619). Without power on the die no clock runs. -/
def State.idle (s : State) : State :=
  let s := s.placeDue
  if !s.start.input || s.start.dieOff then s
  else ((s.log.map (·.1)).filter (fun l => decide (l < 128))).foldl (fun s l => s.issueNext l) s.passCycle

end Sys2Proof.Machine
end

