-- ==== Sys2Proof/Safety.lean ====
section
/-!
DEFINITION. Safety.lean: the terms in which claims about the Z8 are made: what an answer is, which part of the state a command
may touch, and when a command of a family has what it needs.
-/
namespace Sys2Proof.Safety
open Sys2Proof.Machine

/-! ### Answers and invariants -/

/-- The answer is a next state, and that state has property `P`. -/
def nextHas (o : Host.Outcome State Fault Refusal) (P : State → Prop) : Prop := ∃ u, o = .next u ∧ P u

/-- Device memory is in its canonical form: addresses rise strictly, no byte that reads 0 is listed. -/
def memCanonical (s : State) : Prop := Memory.wf s.mem = true

/-- A property that every step keeps. -/
def Kept (P : State → Prop) : Prop := ∀ s u, P s → Sys2Proof.Machine.step s = .next u → P u

/-- A step from this state neither faults nor is refused. -/
def goesOn (s : State) : Prop := ∃ u, Sys2Proof.Machine.step s = .next u

/-! ### What a command touches -/

/-- Nothing but logical core `l` differs. -/
def onlyCore (l : Nat) (s u : State) : Prop := u = { s with log := u.log } ∧ ∀ k, k ≠ l → u.core k = s.core k

/-- Within logical core `l`, nothing but thread `n` and the number of the thread that issued last differs. -/
def coreFrame (l n : Nat) (s u : State) : Prop :=
  (∀ k, k ≠ l → u.core k = s.core k)
    ∧ u.core l = { s.core l with threads := (u.core l).threads, lastThread := (u.core l).lastThread }
    ∧ ∀ m, m ≠ n → u.thread l m = s.thread l m

/-- Nothing but thread `n` of logical core `l` differs, and the number of that core's thread that issued last. -/
def onlyThread (l n : Nat) (s u : State) : Prop := u = { s with log := u.log } ∧ coreFrame l n s u

/-- No SERVE or STREAM command of identity `id` on core `l` reads a bank of the Shutter (R549). -/
def readsNoBank (s : State) (l id : Nat) : Prop := ∀ x ∈ s.shut, ∀ y ∈ x.2.readers, y.1 = l → y.2.1 ≠ id

/-- What an engine of logical core `l` may touch: the physical core under it and its own core's state; no other core, and no turn. -/
def engineFrame (l : Nat) (s u : State) : Prop :=
  (∀ j, j ≠ s.under l → u.phy j = s.phy j) ∧ (∀ j, j ≠ l → u.core j = s.core j) ∧ u.turn = s.turn

/-- Command `r` of core `l` goes on in `u`: it is still running, with the same descriptor, and its engine has kept to its frame. -/
def runsOn (l : Nat) (r : Run) (s u : State) (P : Run → Prop) : Prop :=
  engineFrame l s u ∧ ∃ y, u.runOf l r.cmd.id = some y ∧ y.cmd = r.cmd ∧ P y

/-- Command `r` of core `l` has stopped for a replay on its panel's spare (R519): it waits at the end of the queue. -/
def waitsForReplay (l : Nat) (r : Run) (s u : State) : Prop :=
  u.mem = s.mem ∧ (u.spare (s.under l / 17)).queue = (s.spare (s.under l / 17)).queue ++ [(l, r.cmd.id)]
    ∧ ∃ y, u.runOf l r.cmd.id = some y ∧ y.replaying = true ∧ y.cmd = r.cmd ∧ y.done = r.done

/-! ### Scalar instructions (R199 to R223) -/

/-- Thread `n` of logical core `l` may issue, its program counter may be fetched from, and guard `g` holds. -/
def runs (s : State) (l n : Nat) (g : Guard) : Prop :=
  s.issues l n = true ∧ s.accessFault (s.thread l n).part.toNat (s.thread l n).pc.toNat 4 false = none
    ∧ ((s.thread l n).p g.pg.val != g.pn) = true

/-- An instruction of thread `x` has issued, and it stands past it: `y` differs from `x` in its program counter, its scalar
registers, its predicates and its counts of instructions, and in nothing else. -/
def stepped (x y : Thread) : Prop :=
  y = { x with pc := x.pc + 4, regs := y.regs, preds := y.preds, issued := x.issued + 1, issuedRc := y.issuedRc }
    ∧ y.issuedRc.toNat = min (x.issuedRc.toNat + 1) (2 ^ 32 - 1)

/-- `y` has `v` in register `gd` and every other register as in `x`; g0 reads 0 (R199). -/
def wroteG (x y : Thread) (gd : Nat) (v : Dword) : Prop := ∀ j, y.g j = if j = 0 then 0 else if j = gd then v else x.g j

/-- `y` has `v` in predicate `pd` and every other predicate as in `x`; p0 reads 1 (R199). -/
def wroteP (x y : Thread) (pd : Nat) (v : Bool) : Prop := ∀ j, j < 8 → y.p j = if j = 0 then true else if j = pd then v else x.p j

/-- The instruction wrote `v` to register `gd` of its thread and did nothing else. -/
def givesG (s u : State) (l n gd : Nat) (v : Dword) : Prop :=
  onlyThread l n s u ∧ stepped (s.thread l n) (u.thread l n) ∧ (u.thread l n).preds = (s.thread l n).preds
    ∧ wroteG (s.thread l n) (u.thread l n) gd v

/-- The instruction wrote `v` to predicate `pd` of its thread and did nothing else. -/
def givesP (s u : State) (l n pd : Nat) (v : Bool) : Prop :=
  onlyThread l n s u ∧ stepped (s.thread l n) (u.thread l n) ∧ (u.thread l n).regs = (s.thread l n).regs
    ∧ wroteP (s.thread l n) (u.thread l n) pd v

/-- Thread `n` of logical core `l` has taken the exception: FAULTED at its instruction, with cause and code, and its bit of
CCR_EVENT.FAULT is set; its registers, predicates and program counter are as they were (R223). -/
def tookException (s u : State) (l n cause code : Nat) : Prop :=
  let x := s.thread l n
  let y := u.thread l n
  y.st = .faulted ∧ y.excCause = BitVec.ofNat 8 cause ∧ y.excCode = BitVec.ofNat 12 code ∧ y.pc = x.pc ∧ y.regs = x.regs
    ∧ y.preds = x.preds ∧ y.stores = x.stores ∧ bit (u.reg (ctxWin l + 4)) n = true ∧ u.mem = s.mem ∧ u.mc = s.mc
    ∧ (∀ k, k ≠ l → u.core k = s.core k) ∧ ∀ m, m ≠ n → u.thread l m = s.thread l m

/-- The core and thread that a scalar instruction names, and its guard. -/
def scalarOf : Instr → Option (Fin 128 × Fin 8 × Guard)
  | .add c t g _ _ _ | .sub c t g _ _ _ | .and c t g _ _ _ | .or c t g _ _ _ | .xor c t g _ _ _ | .shl c t g _ _ _
  | .shr c t g _ _ _ | .sar c t g _ _ _ | .mul c t g _ _ _ | .mulhu c t g _ _ _ | .mulh c t g _ _ _ | .divu c t g _ _ _
  | .remu c t g _ _ _ | .div c t g _ _ _ | .rem c t g _ _ _ | .min c t g _ _ _ | .max c t g _ _ _ | .minu c t g _ _ _
  | .maxu c t g _ _ _ | .clz c t g _ _ _ | .popc c t g _ _ _ | .ptog c t g _ _ _ | .gtop c t g _ _ _ => some (c, t, g)
  | .addi c t g _ _ _ | .andi c t g _ _ _ | .ori c t g _ _ _ | .xori c t g _ _ _ | .shi c t g _ _ _ | .lim c t g _ _
  | .lsh c t g _ _ | .cmp c t g _ _ _ _ _ | .cmpi c t g _ _ _ _ _ | .plog c t g _ _ _ _ => some (c, t, g)
  | .ldb c t g _ _ _ | .ldh c t g _ _ _ | .ldw c t g _ _ _ | .ldws c t g _ _ _ | .ldd c t g _ _ _ | .ldwx c t g _ _ _
  | .lddx c t g _ _ _ | .stb c t g _ _ _ | .sth c t g _ _ _ | .stw c t g _ _ _ | .std c t g _ _ _ | .stwx c t g _ _ _
  | .stdx c t g _ _ _ => some (c, t, g)
  | .amoSwap c t g _ _ _ _ | .amoAdd c t g _ _ _ _ | .amoAnd c t g _ _ _ _ | .amoOr c t g _ _ _ _ | .amoXor c t g _ _ _ _
  | .amoMaxu c t g _ _ _ _ | .amoMinu c t g _ _ _ _ | .amoMax c t g _ _ _ _ | .amoMin c t g _ _ _ _
  | .amoCas c t g _ _ _ _ => some (c, t, g)
  | .fenceP c t g | .fenceM c t g | .fenceT c t g | .fenceI c t g | .brl c t g _ _ | .jr c t g _ _ _ | .tcmd c t g _ _ _
  | .twait c t g _ _ _ | .rdsum c t g _ _ | .rdflg c t g _ _ | .mfs c t g _ _ | .pause c t g _ _ | .wtick c t g _
  | .trap c t g _ | .halt c t g => some (c, t, g)
  | _ => none

/-! ### Vector instructions (R166 to R191) -/

/-- No word of the storage arrays of a physical core has a wrong code (R150, R190, R372). -/
def soundStore (p : Phys) : Prop := p.accUps = [] ∧ p.vecUps = [] ∧ p.spdUps = []

/-- Stage `k` of the running command `r` is the vector stage under way on logical core `l`, in register mode. -/
def vecRuns (s : State) (l : Nat) (r : Run) (k : Nat) : Prop :=
  s.vecRun l = some (r, k) ∧ s.runOf l r.cmd.id = some r ∧ (r.stage k).started = true ∧ (s.phy (s.under l)).stream = false
    ∧ soundStore (s.phy (s.under l))

/-- That stage has not reached the end of the longest program (R170). -/
def vecReady (s : State) (l : Nat) (r : Run) (k : Nat) : Prop := vecRuns s l r k ∧ (s.phy (s.under l)).vpc < 1024

/-- The vector engine of core `l` has gone past an instruction of stage `k`: device memory, accumulators, other cores and the command
itself are as they were, but for STEP_OVF of the partition where the stage applies or removes the loss scale (R92). -/
def vecWent (s u : State) (l : Nat) (r : Run) (k : Nat) : Prop :=
  let i := s.under l
  (Desc.lsUses (r.desc k) = false → u.mem = s.mem) ∧ (∀ a, a ≠ lossRec r.cmd.part + 0x10 → memGet u.mem a = memGet s.mem a) ∧ (∀ j, j ≠ i → u.phy j = s.phy j) ∧ (∀ j, j ≠ l → u.core j = s.core j) ∧ (u.phy i).vpc = (s.phy i).vpc + 1
    ∧ (u.phy i).acc = (s.phy i).acc ∧ ∃ y, u.runOf l r.cmd.id = some y ∧ y.cmd = r.cmd ∧ y.stages = r.stages

/-- The first `n` elements of vector register `vd` are those of `f`; every other word of the registers is as it was. -/
def vecWrote (s u : State) (l : Nat) (wide : Bool) (vd n : Nat) (f : Nat → Nat) : Prop :=
  let i := s.under l
  let w := if wide then 64 else 32
  (∀ e, e < n → (u.phy i).el wide vd e = f e % 2 ^ w)
    ∧ (∀ e, n * w / 32 ≤ e → e < 512 → (u.phy i).vword (512 * vd + e) = (s.phy i).vword (512 * vd + e))
    ∧ ∀ j e, j ≠ vd → e < 512 → (u.phy i).vword (512 * j + e) = (s.phy i).vword (512 * j + e)

/-! ### Requests to the page engine (R309) -/

/-- No pseudo-channel has FAILED (R352). -/
def stacksUp (s : State) : Prop := ∀ a, s.pcState (hbmMap a).pc ≠ 3

/-- The one request that waits in the ring of pool `p` is at `a` and has OP `op`. -/
def headReq (s : State) (p op a : Nat) : Prop :=
  let h := s.pf p 0x64 0 32
  s.poolOn p = true ∧ a = s.pf p 0x58 0 48 + 32 * h ∧ h ≠ (s.pool p).tail
    ∧ (s.pool p).tail = (h + 1) % (s.pf p 0x60 0 16 + 1) ∧ s.rec_ a 0 8 = op ∧ s.reqReserved a = false ∧ s.inPart p a 32 = true ∧ stacksUp s

/-- That request has ended with status `st`: it is in the entry, and the head has passed it. -/
def reqEnded (s u : State) (p a st : Nat) : Prop :=
  u.peekN (a + 1) 1 = st ∧ u.pf p 0x64 0 32 = (s.pf p 0x64 0 32 + 1) % (s.pf p 0x60 0 16 + 1) ∧ u.poolOn p = true

/-! ### Fragments (R431 to R453) -/

/-- `f` is the fragment at the head of VC `vc` of port `p`; it has come whole, it is for this module and has kind `kind`. -/
def headFrag (s : State) (p vc kind : Nat) (f : Frag) : Prop :=
  ∃ fs, s.headFlits p vc = some fs ∧ f = fragOf fs ∧ f.dest = s.myId ∧ f.kind = kind

/-- That fragment has left its receive buffer. -/
def consumed (s u : State) (p vc : Nat) : Prop :=
  ∃ fs, s.headFlits p vc = some fs ∧ (u.port p).rx.get [] vc = ((s.port p).rx.get [] vc).drop fs.length

/-- A single-flit message of kind `kind` with ARG `arg` to module `dest` has been queued, where its port can send. -/
def told (s u : State) (dest kind arg : Nat) : Prop :=
  let r := s.routePort s.myId dest
  r < 6 → s.portReady r = true → (u.port r).outq.get [] 3 = (s.port r).outq.get [] 3
    ++ [{ flits := Frag.flits { dest := dest, src := s.myId, kind := kind, mtag := s.msg.next % 65536, arg := arg } 3, last := true }]

/-- A fragment that is neither of a message that ended here, nor the first of a reserved one where the module is not aligned, nor without
room for its context or its entry (R30, R448, R449, R451). -/
def mayTake (s : State) (f : Frag) : Prop :=
  s.msg.tombs.any (sameMsg f.src f.mtag) = false ∧ s.msg.dead.any (sameMsg f.src f.mtag) = false
    ∧ (s.ctx? f.src f.mtag ≠ none ∨ f.res = false ∨ s.isAligned = true)
    ∧ (s.ctx? f.src f.mtag ≠ none ∨ s.msg.ctxs.length < 16384)
    ∧ (f.prov = false ∨ s.provKey f.src f.mtag ≠ none ∨ s.provRoom = true)

/-- The fragment is the whole of an unprovisional message. -/
def whole1 (s : State) (f : Frag) : Prop := s.ctx? f.src f.mtag = none ∧ f.nfrag = 0 ∧ f.prov = false

/-- Command `id` of core `l`, not a CHAIN, has one outstanding request less, which ended with `status`. -/
def requestEnded (s u : State) (l id status : Nat) : Prop :=
  ∀ r, s.runOf l id = some r → r.isChain = false → ∃ y, u.runOf l id = some y ∧ y.outstanding = r.outstanding - 1
    ∧ y.status = (if r.status = 0 then status else r.status) ∧ (r.outstanding ≤ 1 → r.issuedAll = true → y.done = true)

/-! ### Starts and the Deadbolt (R577, R635, R636) -/

/-- `u` is how a cold start from `s` ends, its attempts going as in `as`: in the recovery stand after three failed ones or when the
start record cannot be written; else ready, failed at a step with die power off, or still under way (R577, R579). -/
def coldEnds (s : State) (as : List Attempt) (u : State) : Prop :=
  let a := as.headD (Config.freeAttempt s.drawn)
  let event (b : Nat) : Prop := u.fld Reg.strEvent b 1 = 1
  (3 ≤ s.flash.coldFails ∨ a.flashBad = true → u.start.kind = 2 ∧ u.start.ready = false ∧ u.start.busy = false ∧ event 3)
    ∧ (s.flash.coldFails < 3 → a.flashBad = false → u.start.kind = 0 ∧
        (u.start.ready = true ∧ u.start.busy = false ∧ u.flash.coldFails = 0 ∧ u.flash.warmFails = 0
            ∧ u.flash.starts = min (s.flash.starts + 1) (2 ^ 32 - 1) ∧ event 0
          ∨ u.start.ready = false ∧ u.start.dieOff = true ∧ u.flash.coldFails = s.flash.coldFails + 1 ∧ event 1
          ∨ u.start.ready = false ∧ u.start.dieOff = false ∧ u.start.busy = true ∧ u.flash.coldFails = s.flash.coldFails + 1))

/-- `u` is how a warm request in `s` ends (R577): ready with both counts 0, or a start under way, or the recovery stand; with
WARM_FAILS at 3 it is no warm start. -/
def warmEnds (s u : State) : Prop :=
  (u.start.ready = true → u.flash.warmFails = 0 ∧ u.flash.coldFails = 0 ∧ u.start.busy = false)
    ∧ (u.start.ready = false → u.start.busy = true ∨ u.start.kind = 2)
    ∧ (3 ≤ s.flash.warmFails → u.start.kind ≠ 1)

/-- A value half of register `reg`, `v` written by `r`, waits for its complement, and `r` is heard (R635). -/
def opened (s : State) (reg : DbReg) (v : Word) (r : Requester) : Prop :=
  s.hears r = true ∧ s.latch.db = some { reg := reg, val := v, by_ := r }

/-- A half has failed: no pair is open, the failure is counted, and DB_LAST tells where, why and by whom (R636). -/
def dbFailed (s u : State) (off reason : Nat) (r : Requester) : Prop :=
  u.latch = { s.latch with db := none } ∧ u.fld Reg.dbFailCount 0 16 = min (s.fld Reg.dbFailCount 0 16 + 1) (2 ^ 16 - 1)
    ∧ u.reg Reg.dbLast = BitVec.ofNat 32 (off % 2 ^ 24 + reason * 2 ^ 24 + r.code * 2 ^ 27)

end Sys2Proof.Safety
end

