-- ==== Sys2Proof/Certificates/Slice0/Obligations.lean ====
section
/-!
DEFINITION. Certificates/Slice0/Obligations.lean: what is claimed of the model. Each statement's docstring names the rules of the
spec that it rests on.
-/
open Sys2Proof Sys2Proof.Machine Sys2Proof.Safety

/-! ### Scalar instructions (07_control_cores_and_the_krarn_instruction_set.md) -/

/-- R212: each two-operand instruction writes its function of GA and GB to GD and does nothing else.
R212: CLZ counts the leading zeros of GA (64 for zero), POPC its set bits; PTOG gathers the predicates in GD, GTOP
takes p7 to p1 from GA.
R211: the immediate forms; SHI and LSH in every encoding that R211 permits. -/
def Obligations.IntegerInstructions : Prop :=
  (∀ (s : State) (c : Fin 128) (t : Fin 8) (g : Guard) (gd ga gb : Fin 32), runs s c t g →
    let a := (s.thread c t).g ga
    let b := (s.thread c t).g gb
    ∀ p ∈ [
        (Instr.add c t g gd ga gb, a + b), (.sub c t g gd ga gb, a - b), (.and c t g gd ga gb, a &&& b),
        (.or c t g gd ga gb, a ||| b), (.xor c t g gd ga gb, a ^^^ b), (.shl c t g gd ga gb, a <<< (b.toNat % 64)),
        (.shr c t g gd ga gb, a >>> (b.toNat % 64)), (.sar c t g gd ga gb, a.sshiftRight (b.toNat % 64)),
        (.mul c t g gd ga gb, a * b), (.mulhu c t g gd ga gb, BitVec.ofNat 64 (a.toNat * b.toNat / 2 ^ 64)),
        (.mulh c t g gd ga gb, BitVec.ofInt 64 (a.toInt * b.toInt / 2 ^ 64)),
        (.divu c t g gd ga gb, if b = 0 then BitVec.allOnes 64 else BitVec.ofNat 64 (a.toNat / b.toNat)),
        (.remu c t g gd ga gb, if b = 0 then a else BitVec.ofNat 64 (a.toNat % b.toNat)),
        (.div c t g gd ga gb, if b = 0 then BitVec.allOnes 64 else BitVec.ofInt 64 (a.toInt.tdiv b.toInt)),
        (.rem c t g gd ga gb, if b = 0 then a else BitVec.ofInt 64 (a.toInt.tmod b.toInt)),
        (.min c t g gd ga gb, if a.toInt < b.toInt then a else b), (.max c t g gd ga gb, if a.toInt < b.toInt then b else a),
        (.minu c t g gd ga gb, if a.toNat < b.toNat then a else b), (.maxu c t g gd ga gb, if a.toNat < b.toNat then b else a)],
      nextHas (exec p.1 s) (fun u => givesG s u c t gd p.2))
  ∧ (∀ (s : State) (c : Fin 128) (t : Fin 8) (g : Guard) (gd ga gb : Fin 32), runs s c t g →
    let x := s.thread c t
    let a := x.g ga
    nextHas (exec (.clz c t g gd ga gb) s) (fun u => ∃ v : Dword, givesG s u c t gd v
        ∧ (if a = 0 then v = 64 else 2 ^ 63 ≤ a.toNat * 2 ^ v.toNat ∧ a.toNat * 2 ^ v.toNat < 2 ^ 64))
    ∧ nextHas (exec (.popc c t g gd ga gb) s) (fun u =>
        givesG s u c t gd (BitVec.ofNat 64 ((List.range 64).filter (fun i => a.getLsbD i)).length))
    ∧ nextHas (exec (.ptog c t g gd ga gb) s) (fun u => ∃ v : Dword, givesG s u c t gd v
        ∧ ∀ i, i < 64 → v.getLsbD i = (decide (i < 8) && x.p i))
    ∧ nextHas (exec (.gtop c t g gd ga gb) s) (fun u => onlyThread c t s u ∧ stepped x (u.thread c t)
        ∧ (u.thread c t).regs = x.regs ∧ ∀ i, i < 8 → (u.thread c t).p i = (i == 0 || a.getLsbD i)))
  ∧ (∀ (s : State) (c : Fin 128) (t : Fin 8) (g : Guard) (gd ga : Fin 32) (imm : BitVec 12) (w : BitVec 17), runs s c t g →
    let a := (s.thread c t).g ga
    let b : Dword := imm.signExtend 64
    let n := imm.toNat % 64
    (∀ p ∈ [
        (Instr.addi c t g gd ga imm, a + b), (.andi c t g gd ga imm, a &&& b), (.ori c t g gd ga imm, a ||| b),
        (.xori c t g gd ga imm, a ^^^ b), (.lim c t g gd w, w.signExtend 64)],
      nextHas (exec p.1 s) (fun u => givesG s u c t gd p.2))
    ∧ (imm.toNat / 64 % 16 = 0 → ∀ q ∈ [(0, a <<< n), (1, a >>> n), (2, a.sshiftRight n)], imm.toNat / 1024 = q.1 →
        nextHas (exec (.shi c t g gd ga imm) s) (fun u => givesG s u c t gd q.2))
    ∧ (w.toNat < 2 ^ 16 → nextHas (exec (.lsh c t g gd w) s) (fun u =>
        givesG s u c t gd (((s.thread c t).g gd <<< 16) ||| BitVec.ofNat 64 w.toNat))))

/-- R213: the integer conditions and BIT of CMP and CMPI, with the four ways of combining, and PLOG of R211.
R202, R209: an instruction whose guard is false goes past itself and does nothing else. -/
def Obligations.FalseAndTruePredicates : Prop :=
  (∀ (s : State) (c : Fin 128) (t : Fin 8) (g : Guard) (pd pa pb : Fin 8) (cb : BitVec 2) (ga gb : Fin 32) (imm : BitVec 8),
    runs s c t g →
    let x := s.thread c t
    let a := x.g ga
    let combined (v : Bool) : Bool :=
      if cb = 0 then v else if cb = 1 then x.p pd && v else if cb = 2 then x.p pd || v else x.p pd && !v
    let holds (b : Dword) : List (Nat × Bool) :=
      [(0, decide (a = b)), (1, decide (a ≠ b)), (2, decide (a.toInt < b.toInt)), (3, decide (a.toInt ≥ b.toInt)),
        (4, decide (a.toNat < b.toNat)), (5, decide (a.toNat ≥ b.toNat))]
    (∀ q ∈ holds (x.g gb), nextHas (exec (.cmp c t g pd cb ga gb (BitVec.ofNat 7 q.1)) s) (fun u =>
        givesP s u c t pd (combined q.2)))
    ∧ nextHas (exec (.cmp c t g pd cb ga gb 12) s) (fun u => givesP s u c t pd (combined (decide (a &&& x.g gb ≠ 0))))
    ∧ (∀ q ∈ holds (imm.signExtend 64), nextHas (exec (.cmpi c t g pd cb ga (BitVec.ofNat 4 q.1) imm) s) (fun u =>
        givesP s u c t pd (combined q.2)))
    ∧ ∀ q ∈ [(0, x.p pa && x.p pb), (1, x.p pa || x.p pb), (2, x.p pa != x.p pb), (3, x.p pa && !x.p pb)],
        nextHas (exec (.plog c t g pd pa pb (BitVec.ofNat 13 q.1)) s) (fun u => givesP s u c t pd q.2))
  ∧ (∀ (s : State) (i : Instr) (c : Fin 128) (t : Fin 8) (g : Guard),
    scalarOf i = some (c, t, g) → s.issues c t = true → s.accessFault (s.thread c t).part.toNat (s.thread c t).pc.toNat 4 false = none →
    ((s.thread c t).p g.pg.val != g.pn) = false →
    nextHas (exec i s) (fun u => onlyThread c t s u ∧ stepped (s.thread c t) (u.thread c t)
      ∧ (u.thread c t).regs = (s.thread c t).regs ∧ (u.thread c t).preds = (s.thread c t).preds))

/-- R223, R213, R211: what a reserved function or a bit that must be zero raises, and TRAP. The code of ILLEGAL is the operation
code. -/
def Obligations.IllegalAndTrap : Prop :=
  ∀ (s : State) (c : Fin 128) (t : Fin 8) (g : Guard) (gd ga gb : Fin 32) (pd pa pb : Fin 8) (cb : BitVec 2) (imm : BitVec 12)
    (w : BitVec 17) (fn : BitVec 7) (low : BitVec 13), runs s c t g →
    (∀ p ∈ [
        (decide (imm.toNat / 1024 = 3 ∨ imm.toNat / 64 % 16 ≠ 0), Instr.shi c t g gd ga imm, 0x05),
        (decide (2 ^ 16 ≤ w.toNat), .lsh c t g gd w, 0x07),
        (decide (16 ≤ fn.toNat ∨ fn.toNat ∈ [6, 7, 13, 14, 15]), .cmp c t g pd cb ga gb fn, 0x08),
        (decide (low.toNat > 3), .plog c t g pd pa pb low, 0x0A), (decide (fn ≠ 0), .jr c t g gd ga fn, 0x29),
        (decide (imm.toNat ≥ 4), .tcmd c t g gd ga imm, 0x30), (decide (imm.toNat ≥ 2), .twait c t g gd ga imm, 0x31),
        (decide (imm.toNat ≥ 8), .rdsum c t g gd imm, 0x32), (decide (imm.toNat % 4 = 3), .rdflg c t g gd imm, 0x33),
        (decide (imm.toNat > 6), .mfs c t g gd imm, 0x34)],
      p.1 = true → nextHas (exec p.2.1 s) (fun u => tookException s u c t 1 p.2.2))
    ∧ nextHas (exec (.trap c t g imm) s) (fun u => tookException s u c t 6 imm.toNat)

/-- R203, R208, R211: a cached load whose line is in the data cache writes the addressed bytes to GD, zero-extended, for LDWS
sign-extended; one whose line is not there, or whose check bits are wrong, waits for the line, with its registers as they were.
R203, R204, R211: a cached store updates the line of the core's data cache that it hits, goes on its way to the panel
cache after the thread's earlier stores, and leaves device memory, and every other register and thread, as they were. -/
def Obligations.CachedAccess : Prop :=
  (∀ (s : State) (c : Fin 128) (t : Fin 8) (g : Guard) (gd ga : Fin 32) (imm : BitVec 12), runs s c t g →
    let x := s.thread c t
    let a := (x.g ga + imm.signExtend 64).toNat
    let hit := (s.core c).dcache.find? (a / 64)
    let v (n : Nat) : Nat := (hit.getD 0).toNat / 2 ^ (8 * (a % 64)) % 2 ^ (8 * n)
    ∀ p ∈ [
        (1, false, Instr.ldb c t g gd ga imm, BitVec.ofNat 64 (v 1)), (2, false, .ldh c t g gd ga imm, BitVec.ofNat 64 (v 2)),
        (4, false, .ldw c t g gd ga imm, BitVec.ofNat 64 (v 4)),
        (4, true, .ldws c t g gd ga imm, (BitVec.ofNat 32 (v 4)).signExtend 64),
        (8, false, .ldd c t g gd ga imm, BitVec.ofNat 64 (v 8))],
      a < hbmEnd → s.rangeOwner a = some x.part.toNat → a % p.1 = 0 →
      (hit ≠ none → a / 64 ∉ (s.core c).dBad → nextHas (exec p.2.2.1 s) (fun u => givesG s u c t gd p.2.2.2))
      ∧ (hit = none ∨ a / 64 ∈ (s.core c).dBad → nextHas (exec p.2.2.1 s) (fun u => (u.thread c t).st = .wait
          ∧ (u.thread c t).wait = .data (.loadCached p.1 p.2.1 gd) a none ∧ (u.thread c t).pc = x.pc
          ∧ (u.thread c t).regs = x.regs ∧ (u.thread c t).preds = x.preds ∧ u.mem = s.mem
          ∧ (∀ k, k ≠ c.val → u.core k = s.core k) ∧ ∀ m, m ≠ t.val → u.thread c m = s.thread c m)))
  ∧ (∀ (s : State) (c : Fin 128) (t : Fin 8) (g : Guard) (gs ga : Fin 32) (imm : BitVec 12), runs s c t g →
    let x := s.thread c t
    let a := (x.g ga + imm.signExtend 64).toNat
    ∀ p ∈ [
        (1, Instr.stb c t g gs ga imm), (2, .sth c t g gs ga imm), (4, .stw c t g gs ga imm), (8, .std c t g gs ga imm)],
      a < hbmEnd → s.rangeOwner a = some x.part.toNat → a % p.1 = 0 →
      nextHas (exec p.2 s) (fun u => u = { s with log := u.log } ∧ (∀ k, k ≠ c.val → u.core k = s.core k)
        ∧ (∀ m, m ≠ t.val → u.thread c m = s.thread c m)
        ∧ (u.thread c t).stores = x.stores ++ [{ addr := a, data := toBytes p.1 (x.g gs).toNat, at_ := s.cycles }]
        ∧ (u.thread c t).pc = x.pc + 4 ∧ (u.thread c t).regs = x.regs ∧ (u.thread c t).preds = x.preds ∧ (u.thread c t).st = .ready
        ∧ (u.core c).tags = (s.core c).tags ∧ (u.core c).queue = (s.core c).queue
        ∧ (∀ k, k ≠ a / 64 → (u.core c).dcache.find? k = (s.core c).dcache.find? k)
        ∧ ∀ line, (s.core c).dcache.find? (a / 64) = some line → a / 64 ∉ (s.core c).dBad → ∃ line' : BitVec 512, (u.core c).dcache.find? (a / 64) = some line'
            ∧ ∀ i, i < 64 → line'.toNat / 2 ^ (8 * i) % 256 =
                if a % 64 ≤ i ∧ i < a % 64 + p.1 then (x.g gs).toNat / 2 ^ (8 * (i - a % 64)) % 256 else line.toNat / 2 ^ (8 * i) % 256))

/-- R200, R205, R214: an uncached load or store, or an atomic, of HBM sends its request to the memory controller of its
address, behind those that came before it and, of its own cycle, those of lower physical cores; the thread waits for it. Memory changes
when the controller serves it. -/
def Obligations.UncachedRequest : Prop :=
  ∀ (s : State) (c : Fin 128) (t : Fin 8) (g : Guard) (gd ga gb : Fin 32) (imm : BitVec 12) (w32 : Bool), runs s c t g →
    let x := s.thread c t
    let a := (x.g ga + imm.signExtend 64).toNat
    let b := (x.g ga).toNat
    let w := if w32 then 4 else 8
    let amo (op : AmoOp) : MemOp := .amo op w gd ((x.g gb).toNat % 2 ^ (8 * w)) ((x.g gd).toNat % 2 ^ (8 * w))
    ∀ p ∈ [
        (Instr.ldwx c t g gd ga imm, a, 4, MemOp.loadUncached 4 gd), (.lddx c t g gd ga imm, a, 8, .loadUncached 8 gd),
        (.stwx c t g gd ga imm, a, 4, .storeUncached 4 ((x.g gd).toNat % 2 ^ 32)),
        (.stdx c t g gd ga imm, a, 8, .storeUncached 8 (x.g gd).toNat), (.amoSwap c t g w32 gd ga gb, b, w, amo .swap),
        (.amoAdd c t g w32 gd ga gb, b, w, amo .add), (.amoAnd c t g w32 gd ga gb, b, w, amo .and),
        (.amoOr c t g w32 gd ga gb, b, w, amo .or), (.amoXor c t g w32 gd ga gb, b, w, amo .xor),
        (.amoMaxu c t g w32 gd ga gb, b, w, amo .maxu), (.amoMinu c t g w32 gd ga gb, b, w, amo .minu),
        (.amoMax c t g w32 gd ga gb, b, w, amo .max), (.amoMin c t g w32 gd ga gb, b, w, amo .min),
        (.amoCas c t g w32 gd ga gb, b, w, amo .cas)],
      p.2.1 < hbmEnd → s.rangeOwner p.2.1 = some x.part.toNat → p.2.1 % p.2.2.1 = 0 →
      nextHas (exec p.1 s) (fun u => u = { s with log := u.log, mc := u.mc } ∧ coreFrame c t s u
        ∧ (u.thread c t).st = .wait ∧ (u.thread c t).wait = .data p.2.2.2 p.2.1 none ∧ (u.thread c t).pc = x.pc
        ∧ (u.thread c t).regs = x.regs ∧ (u.thread c t).preds = x.preds ∧ u.mc = { s.mc with reqs := u.mc.reqs }
        ∧ (∀ k, k ≠ (hbmMap p.2.1).pc → u.mc.reqs.get [] k = s.mc.reqs.get [] k)
        ∧ ∃ before after, s.mc.reqs.get [] (hbmMap p.2.1).pc = before ++ after
            ∧ u.mc.reqs.get [] (hbmMap p.2.1).pc = before ++ { addr := p.2.1, op := p.2.2.2, core := c, thread := t, part := x.part.toNat, at_ := s.cycles, entered := s.cycles } :: after
            ∧ (∀ y ∈ before, y.at_ < s.cycles ∨ s.under y.core ≤ s.under c)
            ∧ ∀ y, after.head? = some y → s.cycles ≤ y.at_ ∧ s.under c < s.under y.core)

/-- R207: where an access must not go, the instruction raises the exception of R207 before it has any effect: ADDRESS (3) outside
HBM and the scale area, ACCESS (4) in a range of another partition, ALIGN (2) when it is not naturally aligned. -/
def Obligations.AccessExceptions : Prop :=
  ∀ (s : State) (c : Fin 128) (t : Fin 8) (g : Guard) (gd ga gb : Fin 32) (imm : BitVec 12) (w32 : Bool), runs s c t g →
    let x := s.thread c t
    let a := (x.g ga + imm.signExtend 64).toNat
    let b := (x.g ga).toNat
    let w := if w32 then 4 else 8
    ∀ p ∈ [
        (Instr.ldb c t g gd ga imm, a, 1), (.ldh c t g gd ga imm, a, 2), (.ldw c t g gd ga imm, a, 4), (.ldws c t g gd ga imm, a, 4),
        (.ldd c t g gd ga imm, a, 8), (.ldwx c t g gd ga imm, a, 4), (.lddx c t g gd ga imm, a, 8), (.stb c t g gd ga imm, a, 1),
        (.sth c t g gd ga imm, a, 2), (.stw c t g gd ga imm, a, 4), (.std c t g gd ga imm, a, 8), (.stwx c t g gd ga imm, a, 4),
        (.stdx c t g gd ga imm, a, 8), (.amoSwap c t g w32 gd ga gb, b, w), (.amoAdd c t g w32 gd ga gb, b, w),
        (.amoAnd c t g w32 gd ga gb, b, w), (.amoOr c t g w32 gd ga gb, b, w), (.amoXor c t g w32 gd ga gb, b, w),
        (.amoMaxu c t g w32 gd ga gb, b, w), (.amoMinu c t g w32 gd ga gb, b, w), (.amoMax c t g w32 gd ga gb, b, w),
        (.amoMin c t g w32 gd ga gb, b, w), (.amoCas c t g w32 gd ga gb, b, w)],
      let e := p.2.1
      let raises (cause : Nat) : Prop :=
        nextHas (exec p.1 s) (fun u => tookException s u c t cause 0 ∧ (u.thread c t).excAddr = BitVec.ofNat 64 e)
      (e ≥ 0xF000080200 → raises 3) ∧ (hbmEnd ≤ e ∧ e < 0xF000000000 → raises 3)
        ∧ (e < hbmEnd ∧ s.rangeOwner e ≠ some x.part.toNat → raises 4)
        ∧ (e < hbmEnd ∧ s.rangeOwner e = some x.part.toNat ∧ e % p.2.2 ≠ 0 → raises 2)

/-- R206: a FENCE whose condition holds retires at once; kind M first writes back every line that the core has written, kind I
empties the core's instruction cache. A FENCE whose condition does not hold makes the thread wait.
R211: BRL and JR write the address of the next instruction to GD and go to their target. -/
def Obligations.FencesAndBranches : Prop :=
  (∀ (s : State) (c : Fin 128) (t : Fin 8) (g : Guard), runs s c t g →
    let x := s.thread c t
    let waits (i : Instr) (kind : Nat) : Prop := nextHas (exec i s) (fun u => onlyThread c t s u ∧ (u.thread c t).st = .wait
      ∧ (u.thread c t).wait = .fence kind ∧ (u.thread c t).pc = x.pc + 4 ∧ (u.thread c t).regs = x.regs)
    ((x.stores = [] → nextHas (exec (.fenceP c t g) s) (fun u => onlyThread c t s u ∧ stepped x (u.thread c t)))
    ∧ (s.hasLive c t = false → nextHas (exec (.fenceT c t g) s) (fun u => onlyThread c t s u ∧ stepped x (u.thread c t)))
    ∧ (x.stores = [] → nextHas (exec (.fenceI c t g) s) (fun u => u = { s with log := u.log } ∧ (∀ k, k ≠ c.val → u.core k = s.core k)
        ∧ (∀ m, m ≠ t.val → u.thread c m = s.thread c m) ∧ stepped x (u.thread c t) ∧ (u.core c).icache = []))
    ∧ (x.stores = [] → nextHas (exec (.fenceM c t g) s) (fun u => stepped x (u.thread c t)
        ∧ (∀ m, m ≠ t.val → u.thread c m = s.thread c m) ∧ (∀ k, k ≠ c.val → u.core k = s.core k)
        ∧ ∀ k y, u.pcache.find? k = some y → c.val ∉ y.dirty))
    ∧ (x.stores ≠ [] → waits (.fenceP c t g) 0 ∧ waits (.fenceM c t g) 1 ∧ waits (.fenceI c t g) 3)
    ∧ (s.hasLive c t = true → waits (.fenceT c t g) 2)))
  ∧ (∀ (s : State) (c : Fin 128) (t : Fin 8) (g : Guard) (gd ga : Fin 32) (off : BitVec 17), runs s c t g →
    let x := s.thread c t
    let link : Dword := BitVec.ofNat 64 (x.pc + 4).toNat
    ∀ p ∈ [(Instr.brl c t g gd off, x.pc + 4 * off.signExtend 48), (.jr c t g gd ga 0, BitVec.ofNat 48 ((x.g ga).toNat / 4 * 4))],
      nextHas (exec p.1 s) (fun u => onlyThread c t s u ∧ (u.thread c t).pc = p.2 ∧ (u.thread c t).preds = x.preds
        ∧ (u.thread c t).st = .ready ∧ (u.thread c t).stores = x.stores ∧ wroteG x (u.thread c t) gd link))

/-- R219: RDSUM returns the summary slot of the thread once it is not pending, or at once with IMM[2]; while it is pending
and IMM[2] is 0 the thread waits. The slot itself is unchanged. A set bit of IMM[11:3] is ILLEGAL. -/
def Obligations.SummaryRead : Prop :=
  ∀ (s : State) (c : Fin 128) (t : Fin 8) (g : Guard) (gd : Fin 32) (imm : BitVec 12), runs s c t g →
    let x := s.thread c t
    let slot := 4 * t.val + imm.toNat % 4
    (8 ≤ imm.toNat → nextHas (exec (.rdsum c t g gd imm) s) (fun u => tookException s u c t 1 0x32))
    ∧ (imm.toNat < 8 → s.slotPending c slot = false ∨ imm.toNat ≥ 4 →
        nextHas (exec (.rdsum c t g gd imm) s) (fun u => givesG s u c t gd ((s.core c).sums.get 0 slot)))
    ∧ (imm.toNat < 4 → s.slotPending c slot = true →
        nextHas (exec (.rdsum c t g gd imm) s) (fun u => onlyThread c t s u ∧ (u.thread c t).st = .wait
          ∧ (u.thread c t).wait = .summary (imm.toNat % 4) gd ∧ (u.thread c t).regs = x.regs))

/-- R218: TWAIT returns the retire word of a tag that it holds and that has retired, and frees the tag; TAG_UNKNOWN for any other
tag; PENDING with IMM[0] while the command has not retired.
R215, R216: a TCMD whose descriptor line is in the data cache, with room in the core command queue and a free tag of
the thread, returns the lowest free tag. -/
def Obligations.CommandTags : Prop :=
  (∀ (s : State) (c : Fin 128) (t : Fin 8) (g : Guard) (gd ga : Fin 32) (imm : BitVec 12), runs s c t g → imm.toNat < 2 →
    let x := s.thread c t
    let tag := (x.g ga).toNat
    (∀ e w, tag / 512 = t.val → (s.core c).tags.find? tag = some e → e.ctx = .thread t → e.word = some w →
        nextHas (exec (.twait c t g gd ga imm) s) (fun u => u = { s with log := u.log } ∧ (∀ k, k ≠ c.val → u.core k = s.core k)
          ∧ (u.core c).tags = (s.core c).tags.drop tag ∧ (u.core c).queue = (s.core c).queue
          ∧ (∀ m, m ≠ t.val → u.thread c m = s.thread c m) ∧ stepped x (u.thread c t) ∧ wroteG x (u.thread c t) gd w))
    ∧ (tag / 512 ≠ t.val ∨ (s.core c).tags.find? tag = none ∨ (∃ e, (s.core c).tags.find? tag = some e ∧ e.ctx ≠ .thread t) →
        nextHas (exec (.twait c t g gd ga imm) s) (fun u => givesG s u c t gd 0x80))
    ∧ (∀ e, tag / 512 = t.val → (s.core c).tags.find? tag = some e → e.ctx = .thread t → e.word = none → imm.toNat = 1 →
        nextHas (exec (.twait c t g gd ga imm) s) (fun u => givesG s u c t gd 0x81))
    ∧ (∀ e, tag / 512 = t.val → (s.core c).tags.find? tag = some e → e.ctx = .thread t → e.word = none → imm.toNat = 0 →
        nextHas (exec (.twait c t g gd ga imm) s) (fun u => onlyThread c t s u ∧ (u.thread c t).st = .wait
          ∧ (u.thread c t).wait = .twait tag gd)))
  ∧ (∀ (s : State) (c : Fin 128) (t : Fin 8) (g : Guard) (gd ga : Fin 32) (imm : BitVec 12) (line : BitVec 512) (tag : Nat),
    runs s c t g → imm.toNat < 4 → gd ≠ 0 →
    let x := s.thread c t
    let a := (x.g ga).toNat
    a < hbmEnd → s.rangeOwner a = some x.part.toNat → a % 64 = 0 → (s.core c).dcache.find? (a / 64) = some line →
    a / 64 ∉ (s.core c).dBad → (s.core c).queue.length < 64 → s.closed = false → tag / 512 = t.val → (s.core c).tags.find? tag = none →
    (∀ k, k / 512 = t.val → k < tag → (s.core c).tags.find? k ≠ none) →
    nextHas (exec (.tcmd c t g gd ga imm) s) (fun u => (u.thread c t).g gd = BitVec.ofNat 64 tag ∧ (u.thread c t).st = .ready
      ∧ (u.thread c t).pc = x.pc + 4 ∧ u.nextCmd = s.nextCmd + 1))

/-- R220, R221, R222, R200: RDFLG returns and clears a flag set; MFS returns the state words; PAUSE of zero cycles goes on, a
longer one waits; WTICK goes on when the turn number has been reached and waits otherwise; HALT halts. -/
def Obligations.StateWordsAndWaits : Prop :=
  ∀ (s : State) (c : Fin 128) (t : Fin 8) (g : Guard) (gd ga : Fin 32) (imm : BitVec 12) (k : Fin 3), runs s c t g →
    let x := s.thread c t
    let n := (x.g ga).toNat % 2 ^ 48
    nextHas (exec (.rdflg c t g gd (BitVec.ofNat 12 k)) s) (fun u => u = { s with log := u.log }
        ∧ (∀ j, j ≠ c.val → u.core j = s.core j) ∧ (∀ m, m ≠ t.val → u.thread c m = s.thread c m)
        ∧ stepped x (u.thread c t) ∧ wroteG x (u.thread c t) gd (((s.core c).flags.get 0 k).setWidth 64)
        ∧ (∀ j : Nat, (u.core c).flags.get 0 j = if j = k then 0 else (s.core c).flags.get 0 j))
    ∧ (∀ q ∈ [(0, t.val), (1, c.val), (2, x.part.toNat), (3, s.turn.num.toNat), (4, s.now4 / 4), (5, s.cycles), (6, x.issued.toNat + 1)],
        nextHas (exec (.mfs c t g gd (BitVec.ofNat 12 q.1)) s) (fun u => givesG s u c t gd (BitVec.ofNat 64 q.2)))
    ∧ nextHas (exec (.pause c t g ga imm) s) (fun u => onlyThread c t s u ∧ (u.thread c t).pc = x.pc + 4
        ∧ (u.thread c t).regs = x.regs ∧ ((u.thread c t).st = .wait ↔ (x.g ga).toNat + imm.toNat ≠ 0)
        ∧ ((u.thread c t).st = .wait → (u.thread c t).wait = .pause))
    ∧ nextHas (exec (.wtick c t g ga) s) (fun u => onlyThread c t s u ∧ (u.thread c t).pc = x.pc + 4 ∧ (u.thread c t).regs = x.regs
        ∧ ((u.thread c t).st = .ready ↔ (s.turn.running = true ∧ n ≤ s.turn.num.toNat))
        ∧ ((u.thread c t).st = .ready ∨ (u.thread c t).st = .wait ∧ (u.thread c t).wait = .wtick n))
    ∧ nextHas (exec (.halt c t g) s) (fun u => (u.thread c t).st = .halted ∧ bit (u.reg (ctxWin c + 4)) (8 + t.val) = true
        ∧ (u.thread c t).regs = x.regs ∧ u.mem = s.mem ∧ (∀ j, j ≠ c.val → u.core j = s.core j))

/-! ### Threads and memory (07_control_cores_and_the_krarn_instruction_set.md, 12_memory_system.md) -/

/-- R224, R225, R226: RUN written 1 starts a thread that is OFF, FAULTED or HALTED at THR_START and clears THR_EXC; RUN written 0
sends it to OFF, or lets a memory access complete first; CODE_INV begins an invalidation, and its end empties the instruction
cache and leaves no clean line of the panel in the panel cache; a PAUSE that runs out makes its thread READY. -/
def Obligations.ThreadControls : Prop :=
  ∀ (s : State) (r : Requester) (q : Fin 136) (t : Fin 8) (l : Fin 128), s.logOf q = some l.val → s.mayRun r l t = true →
    s.hears r = true →
    let x := s.thread l t
    (x.st ∈ [ThrState.off, .faulted, .halted] → nextHas (exec (.threadRun r q t) s) (fun u => onlyThread l t s u
      ∧ u.thread l t = { x with
          pc := x.start, st := .ready, wait := .none, excCause := 0, excCode := 0, issued := 0, stopPending := false }))
    ∧ nextHas (exec (.threadStop r q t) s) (fun u => onlyThread l t s u
        ∧ (x.inAccess = false → u.thread l t = { x with st := .off, wait := .none, stopPending := false })
        ∧ (x.inAccess = true → u.thread l t = { x with stopPending := true }))
    ∧ nextHas (exec (.codeInv r q) s) (fun u => u = { s with regs := u.regs } ∧ bit (u.reg (coreWin q + 8)) 0 = true
        ∧ ∀ k, k ≠ coreWin q + 8 → u.reg k = s.reg k)
    ∧ (bit (s.reg (coreWin q + 8)) 0 = true → nextHas (exec (.codeInvDone q) s) (fun u =>
        bit (u.reg (coreWin q + 8)) 0 = false ∧ (u.core l).icache = [] ∧ (u.core l).threads = (s.core l).threads
          ∧ bit (u.reg (ctxWin l + 4)) 16 = true ∧ u.mem = s.mem
          ∧ ∀ e, e ∈ u.pcache ↔ e ∈ s.pcache ∧ (e.1 / 2 ^ 40 = q.val / 17 → e.2.dirty ≠ [])))
    ∧ (x.st = .wait → x.wait = .pause → nextHas (exec (.pauseExpiry l t) s) (fun u => onlyThread l t s u
        ∧ u.thread l t = { x with st := .ready, wait := .none }))

/-- R200, R205, R208, R214: the access that a thread waits on completes: the answer of the controller is in GD and the thread goes
past the instruction; a poisoned answer raises BUS (5).
R203, R204: a load that waits for a line finds it in the panel cache, takes it into the data cache with the core's own stores
that are on their way, and writes its bytes to GD.
R204, R224: a store before which no other of its cycle goes, as it reaches the panel cache, is in the line there, and every other
data cache of the panel has lost its copy. -/
def Obligations.StoresAndAccessesComplete : Prop :=
  (∀ (s : State) (c : Fin 128) (t : Fin 8) (a v w rd b cmp : Nat) (op : AmoOp), a < hbmEnd → (s.thread c t).st = .wait →
    (s.thread c t).stopPending = false →
    let x := s.thread c t
    let done (u : State) : Prop := onlyThread c t s u
      ∧ u.thread c t = { x with st := .ready, wait := .none, pc := x.pc + 4, regs := (u.thread c t).regs }
    (∀ o ∈ [MemOp.loadUncached w rd, .amo op w rd b cmp], x.wait = .data o a (some (v, false)) →
        nextHas (exec (.loadReturn c t) s) (fun u => done u ∧ wroteG x (u.thread c t) rd (BitVec.ofNat 64 v)))
    ∧ (x.wait = .data (.storeUncached w v) a (some (0, false)) →
        nextHas (exec (.loadReturn c t) s) (fun u => done u ∧ (u.thread c t).regs = x.regs))
    ∧ (∀ o ∈ [MemOp.loadUncached w rd, .amo op w rd b cmp], x.wait = .data o a (some (v, true)) →
        nextHas (exec (.loadReturn c t) s) (fun u => tookException s u c t 5 0 ∧ (u.thread c t).excAddr = BitVec.ofNat 64 a)))
  ∧ (∀ (s : State) (c : Fin 128) (t : Fin 8) (a w rd : Nat) (y : PLine), (s.thread c t).st = .wait → (s.thread c t).stopPending = false →
    (s.thread c t).wait = .data (.loadCached w false rd) a none →
    s.pcache.find? (pkey (s.under c / 17) (a / 64)) = some y → y.poison = false → y.ups = 0 → (∀ x ∈ (s.core c).threads, x.2.stores = []) →
    nextHas (exec (.loadReturn c t) s) (fun u => u.mem = s.mem ∧ u.pcache = s.pcache
      ∧ (u.core c).dcache.find? (a / 64) = some y.data ∧ (u.thread c t).st = .ready
      ∧ (u.thread c t).pc = (s.thread c t).pc + 4
      ∧ wroteG (s.thread c t) (u.thread c t) rd (BitVec.ofNat 64 (y.data.toNat / 2 ^ (8 * (a % 64)) % 2 ^ (8 * w)))))
  ∧ (∀ (s : State) (c : Fin 128) (t : Fin 8) (st : PendStore) (rest : List PendStore) (y : PLine), (s.thread c t).stores = st :: rest →
    (s.thread c t).st = .ready → s.present c = true → st.addr % 64 + st.data.length ≤ 64 →
    let line := st.addr / 64
    let key := pkey (s.under c / 17) line
    s.pcache.find? key = some y → y.ups = 0 → s.tiesBefore c t st = [] →
    nextHas (exec (.storeReachesPanelCache c t) s) (fun u => u.mem = s.mem ∧ (u.thread c t).stores = rest
      ∧ (∀ k, k ≠ c.val → s.under k / 17 = s.under c / 17 → (u.core k).dcache.find? line = none)
      ∧ (∀ k, k ≠ key → u.pcache.find? k = s.pcache.find? k)
      ∧ ∃ z, u.pcache.find? key = some z ∧ c.val ∈ z.dirty ∧ z.poison = y.poison
        ∧ ∀ i, i < 64 → z.data.toNat / 2 ^ (8 * i) % 256 =
            if st.addr % 64 ≤ i ∧ i < st.addr % 64 + st.data.length then (st.data.getD (i - st.addr % 64) 0).toNat
            else y.data.toNat / 2 ^ (8 * i) % 256))

/-- R214: what an atomic writes over the old value of `w` bytes; `cmp` is GD as it stood.
R205, R214, R350, R363: the controller serves the only request that it holds, of an unregulated partition: a load is answered
with the bytes of memory; a store changes exactly its bytes; an atomic is answered with the old value and stores its new one.
GEN of tracked regions (R381) apart, no other byte of memory changes. -/
def Obligations.ControllerServes : Prop :=
  (∀ (w old b cmp : Nat), (w = 4 ∨ w = 8) → old < 2 ^ (8 * w) → b < 2 ^ (8 * w) →
    let sg (v : Nat) : Int := if v < 2 ^ (8 * w - 1) then (v : Int) else (v : Int) - 2 ^ (8 * w)
    amoNew .swap w old b cmp = b ∧ amoNew .add w old b cmp = (old + b) % 2 ^ (8 * w)
      ∧ (∀ i, (amoNew .and w old b cmp).testBit i = (old.testBit i && b.testBit i))
      ∧ (∀ i, (amoNew .or w old b cmp).testBit i = (old.testBit i || b.testBit i))
      ∧ (∀ i, (amoNew .xor w old b cmp).testBit i = (old.testBit i != b.testBit i))
      ∧ amoNew .maxu w old b cmp = (if old < b then b else old) ∧ amoNew .minu w old b cmp = (if b < old then b else old)
      ∧ amoNew .max w old b cmp = (if sg old < sg b then b else old) ∧ amoNew .min w old b cmp = (if sg b < sg old then b else old)
      ∧ amoNew .cas w old b cmp = (if old = cmp then b else old))
  ∧ (∀ (s : State) (r : HbmReq) (pc : Fin 1024) (bank : Fin 32) (w rd v b cmp : Nat) (op : AmoOp) (o : MemOp),
    s.mc.reqs.get [] pc = [r] → pc.val = (hbmMap r.addr).pc → bank.val = (hbmMap r.addr).bank → s.mc.training = [] →
    s.regulated r.part = false → (w = 4 ∨ w = 8) → r.addr < hbmEnd → r.addr % w = 0 → s.rangeOwner r.addr = some r.part →
    s.poisoned (r.addr / 64) = false → s.pcState pc ≠ 3 → r.op = o → (s.thread r.core r.thread).wait = .data o r.addr none →
    let old := s.peekN r.addr w
    let answered (u : State) (x : Nat) : Prop := (u.thread r.core r.thread).wait = .data o r.addr (some (x, false))
      ∧ u.mc.reqs.get [] pc = []
    let wrote (u : State) (x : Nat) : Prop := u.peek r.addr w = toBytes w x
      ∧ ∀ a, (a < r.addr ∨ r.addr + w ≤ a) → (a < 0xF000200000 ∨ 0xF000220000 ≤ a) → memGet u.mem a = memGet s.mem a
    (o = .loadUncached w rd → nextHas (exec (.hbmRequestServe pc bank {}) s) (fun u => answered u old ∧ u.mem = s.mem))
    ∧ (o = .storeUncached w v → nextHas (exec (.hbmRequestServe pc bank {}) s) (fun u => answered u 0 ∧ wrote u v))
    ∧ (o = .amo op w rd b cmp → nextHas (exec (.hbmRequestServe pc bank {}) s) (fun u =>
        answered u old ∧ wrote u (amoNew op w old b cmp))))

/-- R348, R351, R353: the scrub reads block after block and granule after granule, and sets MEM_EVENT.SCRUB_PASS at the end of a
pass; one symbol in error is corrected and counted; while the spare line of a pseudo-channel is trained its requests wait,
and are served again afterwards.
R380: a write of 1 to ENABLE of a tracked region starts it with GEN 0 when its range lies in the partition's HBM, and sets
CONFIG_ERR otherwise. -/
def Obligations.ScrubTrainingRegions : Prop :=
  (∀ (s : State) (pc : Fin 1024) (k : Fin 68), bit (s.reg Reg.memScrub) 0 = true →
    let pos := (s.reg Reg.memScrubPos).toNat
    let here := (hbmMap (64 * (4 * pos + s.mc.scrubBlk))).pc
    (s.mc.scrubBlk < 3 → nextHas (exec (.scrubRead []) s) (fun u => u = { s with mc := { s.mc with scrubBlk := s.mc.scrubBlk + 1 } }))
    ∧ (s.mc.scrubBlk = 3 → pos + 1 < 0xC000000000 / 256 → nextHas (exec (.scrubRead []) s) (fun u =>
        u.mc = { s.mc with scrubBlk := 0 } ∧ (u.reg Reg.memScrubPos).toNat = pos + 1 ∧ u.mem = s.mem))
    ∧ (s.mc.scrubBlk = 3 → pos + 1 = 0xC000000000 / 256 → nextHas (exec (.scrubRead []) s) (fun u =>
        u.mc = { s.mc with scrubBlk := 0, lineErr := [] } ∧ u.reg Reg.memScrubPos = 0 ∧ bit (u.reg Reg.memEvent) 5 = true))
    ∧ (s.mc.scrubBlk < 3 → s.pcState here ≤ 1 → s.mc.lineErr.get 0 (64 * here + lineOf k) < 15 →
        nextHas (exec (.scrubRead [k]) s) (fun u => u.mem = s.mem ∧ bit (u.reg Reg.memEvent) 0 = true
          ∧ bits (u.reg Reg.memEccCnt) 0 16 = min (bits (s.reg Reg.memEccCnt) 0 16 + 1) 0xFFFF
          ∧ u.mc.lineErr.get 0 (64 * here + lineOf k) = s.mc.lineErr.get 0 (64 * here + lineOf k) + 1))
    ∧ (pc.val ∈ s.mc.training → nextHas (exec (.hbmRequestServe pc 0 {}) s) (fun u => u = s))
    ∧ nextHas (exec (.lineSpareTrained pc) s) (fun u => u.mc = { s.mc with training := u.mc.training }
        ∧ (∀ j, j ∈ u.mc.training ↔ j ∈ s.mc.training ∧ j ≠ pc.val) ∧ u.mem = s.mem))
  ∧ (∀ (s : State) (w : Writer) (i : Fin 4096),
    let a := 0xF000200000 + 0x20 * i.val
    let part := s.rec_ a 12 4
    let base := s.rec_ (a + 8) 0 48
    let pages := s.rec_ (a + 16) 0 32
    s.writesFor w part = true → s.rec_ a 0 1 = 0 →
    (s.inPart part base (4096 * pages) = true → pages ≠ 0 → nextHas (exec (.regionEnable w i) s) (fun u =>
        u.rec_ a 0 1 = 1 ∧ u.rec_ a 1 1 = 0 ∧ u.rec_ (a + 16) 32 32 = 0 ∧ u.rec_ a 12 4 = part ∧ u.rec_ (a + 8) 0 48 = base
          ∧ u.rec_ (a + 16) 0 32 = pages ∧ u = { s with mem := u.mem }
          ∧ ∀ b, b < a ∨ a + 32 ≤ b → memGet u.mem b = memGet s.mem b))
    ∧ (s.inPart part base (4096 * pages) = false ∨ pages = 0 → nextHas (exec (.regionEnable w i) s) (fun u =>
        u.rec_ a 0 1 = 0 ∧ u.rec_ a 1 1 = 1 ∧ u = { s with mem := u.mem }
          ∧ ∀ b, b < a ∨ a + 32 ≤ b → memGet u.mem b = memGet s.mem b)))


/-! ### The machine and its turns (02_turns_and_the_timing_promise.md) -/

/-- One step takes the command at the front of the queue and runs it on the rest. -/
def Obligations.StepRunsFront : Prop :=
  ∀ (s : State) (c : Instr) (rest : List Instr), s.pending = c :: rest → step s = exec c { s with pending := rest }

/-- Every command completes: from every state, with every operand, exec answers a next state, and the queue is as it was. No rule
of the spec gives a command no effect at all; a command whose conditions do not hold changes nothing. -/
def Obligations.EveryCommandCompletes : Prop := ∀ (i : Instr) (s : State), nextHas (exec i s) (fun u => u.pending = s.pending)

/-- On an empty queue one core cycle of 1.25 ns passes (R7, R221, R640), after what occurred before it has taken its entries in the
fault record (R619); without power on the die that is all. Device memory, the turn and the threads stay as they are in the cycle
itself. Then a core issues one instruction of a thread that may (R200, R201): the word at its program counter decodes to an
instruction, which runs; without the line in its instruction cache, or where a bit of it has flipped (R208), the thread waits; an operation code that the table does not
have raises ILLEGAL whatever the guard, a reserved function or fence kind where the guard holds (R202, R206, R212, R214, R223). That a step on an empty queue is a cycle is the model's choice (log entry 1).
R20, R22: at a tick the turn number rises by one and the timestamp of the tick is recorded; the first tick of a standalone
module or master takes the number from TRN_START.
R24, R25, R29: what a TURN_REF edge, a missing edge and a missing marker do to the lock and to alignment. -/
def Obligations.TicksAndReference : Prop :=
  (∀ (s : State), s.pending = [] →
    (s.start.input = false ∨ s.start.dieOff = true → step s = .next s.placeDue)
    ∧ (s.flt.due = [] → s.placeDue = s)
    ∧ (s.start.input = true → s.start.dieOff = false →
        let v := s.placeDue.passCycle
        v.cycles = s.cycles + 1 ∧ v.now4 = s.now4 + 5 ∧ v.pending = []
        ∧ (s.sill.leaving = [] → s.sill.steps = [] → v.mem = s.mem ∧ v.turn = { s.turn with progs := v.turn.progs }
          ∧ (∀ l t, v.thread l t = s.thread l t)
          ∧ ((∀ l t, l < 128 → t < 8 → s.issues l t = false) → step s = .next v)
          ∧ ∀ (c : Fin 128) (t : Fin 8), s.log.map (·.1) = [c.val] → s.issues c t = true →
              (∀ k, k < 8 → k ≠ t.val → s.issues c k = false) →
              let x := s.thread c t
              let a := x.pc.toNat
              let line := (s.core c).icache.find? (a / 64)
              let bad : Prop := (v.core c).iBad.contains (a / 64) = true
              let waits (u : State) : Prop := (u.thread c t).st = .wait ∧ (u.thread c t).pc = x.pc ∧ (u.thread c t).regs = x.regs ∧ u.mem = v.mem
              s.accessFault x.part.toNat a 4 false = none →
              (line = none → nextHas (step s) waits)
              ∧ ∀ d, line = some d →
                  let w : Word := BitVec.ofNat 32 (lineVal d a 4)
                  (∀ i, decodeScalar c t w = .instr i → nextHas (step s) (fun u => bad ∧ waits u ∨ ¬ bad ∧ exec i v = .next u))
                  ∧ (decodeScalar c t w = .reservedOp →
                      nextHas (step s) (fun u => bad ∧ waits u ∨ ¬ bad ∧ tookException v u c t 1 (wordOp w)))
                  ∧ (decodeScalar c t w = .reserved → nextHas (step s) (fun u => bad ∧ waits u
                      ∨ ¬ bad ∧ (x.guard (wordGuard w) = true → tookException v u c t 1 (wordOp w))
                        ∧ (x.guard (wordGuard w) = false → onlyThread c t v u ∧ stepped (v.thread c t) (u.thread c t)))))))
  ∧ (∀ (s : State), s.canTick = true →
    (s.turn.running = true → nextHas (exec .tick s) (fun u =>
      u.turn.num = s.turn.num + 1 ∧ u.turn.tick = BitVec.ofNat 64 s.time ∧ u.turn.running = true))
    ∧ (s.turn.running = false → s.turn.role ≠ .follower → s.sill.leaving = [] → s.latch.pend = [] →
        nextHas (exec .tick s) (fun u =>
          u.turn.num.toNat = (s.reg Reg.trnStartLo).toNat + 2 ^ 32 * bits (s.reg Reg.trnStartHi) 0 16 ∧ u.turn.running = true)))
  ∧ (∀ (s : State) (interval : Word),
    let i := interval.toNat
    let p := (s.reg Reg.trnPeriod).toNat
    let good : Prop := (max i p - min i p) * 1000000 ≤ 500 * p
    (s.refLock = true →
      (s.turn.lock = .seeking → good → nextHas (exec (.turnRefEdge interval) s) (fun u => u.reg Reg.trnRefp = interval
        ∧ (3 ≤ s.turn.inRun → u.turn.lock = .locked ∧ bit (u.reg Reg.trnEvent) 0 = true)
        ∧ (s.turn.inRun < 3 → u.turn.lock = .seeking ∧ u.turn.inRun = s.turn.inRun + 1)))
      ∧ (s.turn.lock = .seeking → ¬ good → nextHas (exec (.turnRefEdge interval) s) (fun u => u.reg Reg.trnRefp = interval
        ∧ u.turn.lock = .seeking ∧ u.turn.inRun = 0))
      ∧ (s.turn.lock = .locked → good → nextHas (exec (.turnRefEdge interval) s) (fun u => u.reg Reg.trnRefp = interval
        ∧ u.turn.lock = .locked ∧ u.turn.lastFour = (i :: s.turn.lastFour).take 4))
      ∧ (s.turn.lock = .locked → ¬ good → nextHas (exec (.turnRefEdge interval) s) (fun u => u.reg Reg.trnRefp = interval
        ∧ u.turn.lock = .holdover ∧ bit (u.reg Reg.trnEvent) 1 = true ∧ u.turn.lastFour = s.turn.lastFour))
      ∧ (s.turn.lock = .holdover → nextHas (exec (.turnRefEdge interval) s) (fun u => u.reg Reg.trnRefp = interval
        ∧ u.turn.lock = .seeking ∧ u.turn.inRun = 0)))
    ∧ (s.refMeasures = true → s.refLock = false → nextHas (exec (.turnRefEdge interval) s) (fun u => u = { s with regs := u.regs }
        ∧ ∀ k, u.reg k = if k = Reg.trnRefp then interval else s.reg k))
    ∧ (s.refMeasures = false → nextHas (exec (.turnRefEdge interval) s) (fun u => u = s))
    ∧ (s.turn.lock = .locked → nextHas (exec .refEdgeTimeout s) (fun u => u.turn.lock = .holdover
        ∧ bit (u.reg Reg.trnEvent) 1 = true ∧ u.turn.num = s.turn.num))
    ∧ (s.turn.lock ≠ .locked → nextHas (exec .refEdgeTimeout s) (fun u => u = s))
    ∧ (s.spindleOn = true → s.turn.role = .follower → (s.turn.stepped || s.turn.running) = true → nextHas (exec .markerMiss s) (fun u =>
        bits (u.reg Reg.trnSkew) 16 8 = min (bits (s.reg Reg.trnSkew) 16 8 + 1) 255 ∧ bit (u.reg Reg.trnEvent) 5 = true
          ∧ u.turn.num = s.turn.num ∧ u.turn.running = s.turn.running
          ∧ u.turn.aligned = (s.turn.aligned && decide (bits (s.reg Reg.trnSkew) 16 8 + 1 < 8)))))

/-- Reset leaves device memory in its canonical form.
R200, R20, R138, R409, R473: right after reset every thread is OFF with its registers 0, every tile slot FREE, every port
and every queue OFF, the Spindle stopped, the fault record empty, and each stored register at the value of its Reset column. -/
def Obligations.ResetState : Prop :=
  (memCanonical State.reset)
  ∧ ((∀ l t, (State.reset.thread l t).st = .off ∧ (State.reset.thread l t).g 1 = 0) ∧ (∀ i t, ((State.reset.phy i).slot t).st = .free)
    ∧ (∀ k, (State.reset.port k).st = .off) ∧ (∀ q, (State.reset.queue q).st = .off) ∧ State.reset.turn.running = false
    ∧ State.reset.flt.count = 0 ∧ (∀ off, State.reset.reg off = regReset off) ∧ ∀ a, memGet State.reset.mem a = 0)

/-- Every step keeps device memory in its canonical form: from whatever state, whatever command is at the front. -/
def Obligations.MemoryStaysCanonical : Prop := Kept memCanonical

/-- R22, R51: a write to TRN_CTL starts or stops the Spindle and writes each field by its own code: a ROLE of 3 changes nothing,
BASE is writable only while ENABLE is 0, TOL waits for its Latch group. No other register changes, but for a period that was pending
when the Spindle stops (R23).
R23: while the Spindle is stopped TRN_PERIOD is written at once, below 10,000 it is refused; while it runs a new period comes
only by a Deadbolt pair and waits for the next tick. -/
def Obligations.SpindleRegisters : Prop :=
  (∀ (s : State) (r : Requester) (v : Word) (role : BitVec 2), s.mayTrn r = true →
    let old := s.reg Reg.trnCtl
    let plain (u : State) : Prop := u.mem = s.mem ∧ u.log = s.log ∧ u.phys = s.phys ∧ bits (u.reg Reg.trnCtl) 24 4 = bits old 24 4
    let fields (u : State) : Prop :=
      let c := u.reg Reg.trnCtl
      bits c 1 2 = (if bits v 1 2 = 3 then bits old 1 2 else bits v 1 2) ∧ bit c 3 = (if bit old 0 then bit old 3 else bit v 3)
        ∧ bits c 4 2 = bits v 4 2 ∧ bits c 8 3 = bits v 8 3 ∧ bits c 16 6 = bits v 16 6 ∧ plain u
    nextHas (exec (.spindleEnable r v) s) (fun u => fields u ∧ bit (u.reg Reg.trnCtl) 0 = true
        ∧ (∀ k, k ≠ Reg.trnCtl → u.reg k = s.reg k) ∧ u.turn.num = s.turn.num
        ∧ (bit old 0 = false → u.turn.running = false ∧ u.turn.aligned = false ∧ u.turn.stepped = false
            ∧ u.turn.role = roleOf (bits (u.reg Reg.trnCtl) 1 2))
        ∧ (bit old 0 = true → u.turn.running = s.turn.running ∧ u.turn.role = s.turn.role))
    ∧ nextHas (exec (.spindleDisable r v) s) (fun u => fields u ∧ bit (u.reg Reg.trnCtl) 0 = false
        ∧ (∀ k, k ≠ Reg.trnCtl → k ≠ Reg.trnPeriod → u.reg k = s.reg k)
        ∧ (bit old 0 = true → u.turn.running = false ∧ u.turn.ledgers = [] ∧ u.turn.standing = s.turn.standing
            ∧ u.turn.valid = false ∧ u.turn.periodPending = none
            ∧ u.reg Reg.trnPeriod = s.turn.periodPending.getD (s.reg Reg.trnPeriod)))
    ∧ nextHas (exec (.roleWrite r role) s) (fun u => plain u ∧ (∀ k, k ≠ Reg.trnCtl → u.reg k = s.reg k)
        ∧ bits (u.reg Reg.trnCtl) 1 2 = (if role = 3 then bits old 1 2 else role.toNat)
        ∧ bit (u.reg Reg.trnCtl) 0 = bit old 0 ∧ bit (u.reg Reg.trnCtl) 3 = bit old 3
        ∧ u.turn.num = s.turn.num ∧ u.turn.role = s.turn.role ∧ u.turn.running = s.turn.running))
  ∧ (∀ (s : State) (r : Requester) (v c : Word), s.mayTrn r = true →
    let bad (u : State) : Prop := u.reg Reg.trnPeriod = s.reg Reg.trnPeriod ∧ bit (u.reg Reg.trnEvent) 6 = true
      ∧ u.turn.periodPending = s.turn.periodPending
    (s.spindleOn = false → 10000 ≤ v.toNat → nextHas (exec (.trnPeriodWrite r v) s) (fun u => u = { s with regs := u.regs }
        ∧ u.reg Reg.trnPeriod = v ∧ ∀ k, k ≠ Reg.trnPeriod → u.reg k = s.reg k))
    ∧ (s.spindleOn = false → v.toNat < 10000 → nextHas (exec (.trnPeriodWrite r v) s) bad)
    ∧ (s.spindleOn = false → nextHas (exec (.trnPeriodPair r c) s) (fun u => u = s))
    ∧ (s.spindleOn = true → s.latch.db = none → nextHas (exec (.trnPeriodWrite r v) s) (fun u => u = { s with latch := u.latch }
        ∧ u.latch.db = some { reg := .trnPeriod, val := v, by_ := r }))
    ∧ (s.spindleOn = true → s.latch.db = some { reg := .trnPeriod, val := v, by_ := r } → c = ~~~v → 10000 ≤ v.toNat →
        nextHas (exec (.trnPeriodPair r c) s) (fun u => u = { s with latch := u.latch, turn := u.turn } ∧ u.latch.db = none
          ∧ u.turn = { s.turn with periodPending := some v }))
    ∧ (s.spindleOn = true → s.latch.db = some { reg := .trnPeriod, val := v, by_ := r } → c = ~~~v → v.toNat < 10000 →
        nextHas (exec (.trnPeriodPair r c) s) (fun u => bad u ∧ u.latch.db = none)))

/-- R42, R43, R46: a main program that has not completed overruns when its consumption exceeds its cost by more than TOL allows,
or at the cut-over point of its class: it is to be stopped, with the cause of R46 and the time.
R43 to R45, R47, R252, R496: at a tile boundary an overrun main program with a fallback gives its cores to the fallback, with
an overrun record written; without one it ends, and so does a fallback that overruns; a program whose threads have halted and
whose commands have retired ends. -/
def Obligations.Doorstop : Prop :=
  (∀ (s : State) (k : Nat) (p : Prog) (cls : Fin 16), s.prog? k = some p → s.progDone k p = false → Tab.rising s.turn.progs = true →
    let cause (c : Nat) : Nat :=
      if ∃ f ∈ s.turn.capFalls, p.admitAt < f ∧ s.turn.ticks ≤ f + 16 then 3
      else if ∃ f ∈ s.turn.periodCuts, p.admitAt < f ∧ s.turn.ticks ≤ f + 15 then 4
      else if 64 * p.used > 256 * p.mainCost * (64 + p.tol) then 1 else c
    let stopped (u : State) (c : Nat) : Prop := u = { s with turn := { s.turn with progs := u.turn.progs } }
      ∧ u.prog? k = some { p with phase := .stopping, cause := cause c, overStamp := s.time, overTurn := s.turnNo }
    (p.phase = .main → 64 * p.used > 256 * p.mainCost * (64 + p.tol) → nextHas (exec (.costExceeded k) s) (fun u =>
        stopped u 1 ∧ ∀ j, j ≠ k → u.prog? j = s.prog? j))
    ∧ (p.phase = .main → 64 * p.used ≤ 256 * p.mainCost * (64 + p.tol) → nextHas (exec (.costExceeded k) s) (fun u => u = s))
    ∧ (p.phase = .main ∨ p.phase = .waiting → p.cls = cls → p.target = s.turnNo → p.cause = 0 →
        nextHas (exec (.cutover cls) s) (fun u => stopped u 2 ∧ ∀ j y, s.prog? j = some y → y.cls ≠ cls → u.prog? j = some y)))
  ∧ (∀ (s : State) (k : Nat) (p : Prog), s.prog? k = some p →
    let ended (u : State) : Prop := u.prog? k = none
    (p.reset = true → s.atBoundary k p = true → nextHas (exec (.mainProgramStop k) s) (fun u => ended u ∧ u.turn.ovrTotal = s.turn.ovrTotal))
    ∧ (p.reset = false → p.phase = .stopping → s.atBoundary k p = true → p.fb = true → p.got = true →
        nextHas (exec (.mainProgramStop k) s) (fun u => u.turn.ovrTotal = s.turn.ovrTotal + 1
          ∧ ∃ y, u.prog? k = some y ∧ y.phase = .fallback ∧ y.cores = p.cores ∧ y.logIdx = some s.turn.ovrTotal))
    ∧ (p.reset = false → p.phase = .stopping → s.atBoundary k p = true → p.fb = false →
        nextHas (exec (.mainProgramStop k) s) (fun u => ended u ∧ u.turn.ovrTotal = s.turn.ovrTotal + 1))
    ∧ (p.phase = .stopping → s.atBoundary k p = false → nextHas (exec (.mainProgramStop k) s) (fun u => u = s))
    ∧ (p.phase = .fallback → s.progDone k p = false → s.atBoundary k p = true →
        (64 * p.fbUsed > 256 * p.fbCost * (64 + p.fbTol) ∨ p.target ≠ s.turnNo) → nextHas (exec (.fallbackOverrun k) s) ended)
    ∧ (∀ q slot, p.src = .turn q slot → (p.phase = .main ∨ p.phase = .fallback) → s.progDone k p = true →
        nextHas (exec (.turnProgramComplete k) s) ended)
    ∧ ∀ i : Fin 262144, p.src = .step i → (p.phase = .main ∨ p.phase = .fallback) → s.progDone k p = true →
        (∀ j y, s.prog? j = some y → y.src = .step i → j = k) → Tab.rising s.turn.progs = true →
        nextHas (exec (.stepComplete i) s) ended)

/-- R488, R489, R492, R507: ACTIVATE that passes every test makes the entry ACTIVE with its standing admission, RETIRE sends an
ACTIVE entry to RETIRING and a FAULTED one to FREE; a write of TOKENS puts the entry on the pending map.
R494, R252: a listed step of this turn takes the lowest free cores, as many as its program asks for; the program's thread starts
on those that have nothing to save. -/
def Obligations.Sequences : Prop :=
  (∀ (s : State) (r : Requester) (w : Writer) (i : Fin 262144) (v : Word) (code : Nat), r ≠ .tumbler → s.hears r = true →
    let answers (u : State) (op st : Nat) : Prop := (u.reg (Reg.seqRes r.code)).toNat = st
      ∧ (u.reg (Reg.seqCmd r.code)).toNat = i.val + op * 2 ^ 20
    (s.closed = false → s.activateCode r i = none → nextHas (exec (.activate r i) s) (fun u => answers u 1 0 ∧ u.seqState i = 1
        ∧ u.seqPart i = s.seqPart i ∧ u.seqTokens i = s.seqTokens i ∧ (∃ a, u.turn.standing.find? i = some a
            ∧ a.cls = s.sf i 0 8 4 ∧ a.main = s.pgf (s.seqProg i) 0x10 0 32)
        ∧ ∀ a, (a < seqEnt i ∨ seqEnt i + 8 ≤ a) → (a < progRec (s.seqProg i) + 0x18 ∨ progRec (s.seqProg i) + 0x20 ≤ a) →
            memGet u.mem a = memGet s.mem a))
    ∧ (s.closed = false → s.activateCode r i = some code → code < 256 → nextHas (exec (.activate r i) s) (fun u =>
        answers u 1 code ∧ u.mem = s.mem ∧ u.turn = s.turn))
    ∧ (s.seqState i = 1 → nextHas (exec (.retire r i) s) (fun u => answers u 2 0 ∧ u.seqState i = 2
        ∧ u.turn.standing.find? i = none))
    ∧ (s.seqState i = 3 → nextHas (exec (.retire r i) s) (fun u => answers u 2 0 ∧ u.seqState i = 0 ∧ u.turn = s.turn))
    ∧ (s.seqState i ≠ 1 → s.seqState i ≠ 3 → nextHas (exec (.retire r i) s) (fun u => answers u 2 0xB0 ∧ u.mem = s.mem))
    ∧ (s.writesFor w (s.seqPart i) = true → s.seqState i ≤ 1 → s.seqDone i ≤ v.toNat → nextHas (exec (.tokensWrite w i v) s) (fun u =>
        u.seqTokens i = v.toNat ∧ u.seqState i = s.seqState i ∧ u.seqDone i = s.seqDone i ∧ u.seq.marked.find? i = some ()
          ∧ ∀ a, (a < seqEnt i ∨ seqEnt i + 8 ≤ a) → memGet u.mem a = memGet s.mem a)))
  ∧ (∀ (s : State) (i : Fin 262144) (k : Nat) (p : Prog), s.prog? k = some p → p.src = .step i → p.phase = .waiting → p.target = s.turnNo →
    p.cause = 0 → Tab.rising s.turn.progs = true → (∀ j y, s.prog? j = some y → y.src = .step i → j = k) →
    (∀ j y, s.prog? j = some y → y.phase = .waiting → y.cause = 0
      ∧ ¬(y.nCores ≠ 0 ∧ p.nCores ≠ 0 ∧ y.target = p.target ∧ j < k ∧ y.nCores ≤ s.freeCores.length)) → p.nCores ≤ s.freeCores.length →
    nextHas (exec (.stepCoreAssign i) s) (fun u => ∃ y, u.prog? k = some y ∧ y.phase = .main ∧ y.cores = s.freeCores.take p.nCores
      ∧ y.mainAddr = p.mainAddr ∧ y.mainCost = p.mainCost))


/-! ### Queues and tensor commands (08_tensor_commands.md, 16_host_ports_and_queues.md) -/

/-- R471: a doorbell of the owning port moves the tail or releases records; a value outside the ring puts the queue in ERROR; a
doorbell of another port changes no queue and is counted.
R473, R474, R479, R488: a queue that is OFF and whose settings stand the checks becomes ACTIVE with an empty ring, otherwise it stays
OFF with its error bit set; ENABLE written 0 drains an ACTIVE queue, and an ACTIVE sequence entry that reports to it enters FAULTED; the
coalescing time covers what has waited with one message. -/
def Obligations.QueueCommands : Prop :=
  (∀ (s : State) (p : Fin 2) (q : Fin 16384) (v : Word), s.hears (Requester.ofPort p) = true →
    let x := s.queue q
    let n := bits v 0 16
    let z := s.qSize q
    let rel := (n + z - x.cqHead) % z
    let only (u : State) (y : Queue) : Prop := u = { s with host := { s.host with queues := u.host.queues } } ∧ u.queue q = y
      ∧ ∀ j, j ≠ q.val → u.queue j = s.queue j
    let failed (u : State) (cause : Nat) : Prop := u.queue q = { x with st := .error, cause := cause }
      ∧ bit (u.reg (hqBase q + 0x28)) 0 = true ∧ (∀ j, j ≠ q.val → u.queue j = s.queue j)
      ∧ ((∀ i ∈ s.seqIn 1, s.seqRptq i ≠ q.val) → u.mem = s.mem)
    let foreign (u : State) : Prop := bit (u.reg (hqBase q + 0x28)) 2 = true ∧ u = { s with regs := u.regs }
    (s.qOwner q = p + 1 → x.st = .active →
      (n < z → nextHas (exec (.sqTail p q v) s) (fun u => only u { x with sqTail := n }))
      ∧ (z ≤ n → nextHas (exec (.sqTail p q v) s) (fun u => failed u 2))
      ∧ (n < z → rel ≤ x.unrel → nextHas (exec (.cqHead p q v) s) (fun u => only u { x with cqHead := n, unrel := x.unrel - rel }))
      ∧ (z ≤ n ∨ (n ≠ x.cqHead ∧ x.unrel < rel) → nextHas (exec (.cqHead p q v) s) (fun u => failed u 3)))
    ∧ (s.qOwner q ≠ p + 1 → nextHas (exec (.sqTail p q v) s) foreign ∧ nextHas (exec (.cqHead p q v) s) foreign))
  ∧ (∀ (s : State) (r : Requester) (q : Fin 16384) (v : Word) (p : Nat), s.ownsQueue r q = true →
    let x := s.queue q
    let part := bits v 12 4
    let own := s.qOwner q
    let sq := s.sqBase q
    let cq := s.cqBase q
    let size := 2 ^ bits v 16 4
    let loc := bits v 1 1
    let good : Prop := 6 ≤ bits v 16 4 ∧ s.partValid part = true ∧ own ≠ 0 ∧ s.partHost part = (if own = 3 then 0 else own)
      ∧ sq % 64 = 0 ∧ cq % 64 = 0 ∧ (loc = 1 ∨ own ≠ 3) ∧ (loc = 0 ∨ s.inPart part sq (64 * size) = true)
      ∧ (own ≠ 3 ∨ s.inPart part cq (16 * size) = true)
    let rest (u : State) : Prop := ∀ j, j ≠ q.val → u.queue j = s.queue j
    let others (u : State) : Prop := u.mem = s.mem ∧ rest u
    (x.st = .off → good → nextHas (exec (.queueEnable r q v) s) (fun u => others u ∧ bit (u.reg (hqBase q)) 0 = true
        ∧ u.queue q = { x with
          st := .active, cause := 0, sqHead := 0, sqTail := 0, cqTail := 0, cqHead := 0, phase := true, unrel := 0 }))
    ∧ (x.st = .off → ¬ good → nextHas (exec (.queueEnable r q v) s) (fun u => others u ∧ u.queue q = x
        ∧ bit (u.reg (hqBase q)) 0 = false ∧ bit (u.reg (hqBase q + 0x28)) 1 = true))
    ∧ (x.st = .active → nextHas (exec (.queueDisable r q v) s) (fun u => rest u ∧ bit (u.reg (hqBase q)) 0 = false
        ∧ ((∀ i ∈ s.seqIn 1, s.seqRptq i ≠ q.val) → u.mem = s.mem)
        ∧ (∀ i, s.seqIn 1 = [i] → i < 262144 → s.seqRptq i = q.val → s.seqState i = 1 → u.seqState i = 3)
        ∧ u.queue q = { x with st := if x.unrec = 0 then .off else .draining }))
    ∧ (0 < x.uncovered → bit (s.reg (hqBase q + 0x18)) 11 = true → bits (s.reg (hqBase q + 0x18)) 24 8 ≠ 0 → s.qPort q = some p →
        nextHas (exec (.coalesceTimeout q) s) (fun u => others u ∧ u.queue q = { x with uncovered := 0 }
          ∧ (s.msiMasked p (bits (s.reg (hqBase q + 0x18)) 0 11) = false → ∃ a d, u.out = .msix p a d :: s.out))))

/-- R470, R472: an intake reads the ring of the queue that it picks: as many entries as the ring, its records and LIMIT permit.
R36, R250: a TURN that stands every test is admitted: its costs are in the ledger of its class and turn, and its program waits for
that turn; one that fails gets a completion record with the code. -/
def Obligations.RingsAndTurns : Prop :=
  (∀ (s : State) (k : Fin 3) (q : Nat), (∀ j, (s.queue j).fetched = []) → s.pickQueue k = some q → s.qLoc q = 0 →
    let x := s.queue q
    let n := s.readable q
    nextHas (exec (.descriptorRead k) s) (fun u => u.queue q = { x with sqHead := (x.sqHead + n) % s.qSize q, unrec := x.unrec + n }
      ∧ (∀ j, j ≠ q → u.queue j = s.queue j) ∧ u.host.nextRead = s.host.nextRead + 1
      ∧ u.out = .hostRead ((s.qPort q).getD 0) s.host.nextRead (s.sqBase q + 64 * x.sqHead) (64 * n) :: s.out
      ∧ 0 < n ∧ n ≤ 64 ∧ x.sqHead + n ≤ s.qSize q ∧ x.outstanding + n ≤ s.qLimit q ∧ u.mem = s.mem ∧ u.log = s.log))
  ∧ (∀ (s : State) (q : Fin 16384) (slot : Fin 65536) (desc : BitVec 512) (code p : Nat),
    let d : Desc := setBits desc 0 8 0x0C
    let s' := s.setQueue q { s.queue q with unrec := (s.queue q).unrec + 1 }
    let t := s.resolveTurn (d.f 0x10 0 16)
    let answer := s.admissionCode (s.qClass q) t (d.f 0x14 0 32) (d.f 0x12 0 1 == 1) (d.f 0x18 0 32)
    s'.check d (s'.chkCtx (Desc.core d) (.queue q slot) (s.qPart q) (some (s.qClass q))) = none →
    (answer = none → nextHas (exec (.turn q slot desc) s) (fun u => u.turn.nextProg = s.turn.nextProg + 1 ∧ u.mem = s.mem ∧ u.log = s.log
      ∧ (∀ j, j ≠ s.turn.nextProg → u.prog? j = s.prog? j)
      ∧ (∃ y, u.prog? s.turn.nextProg = some y ∧ y.phase = .waiting ∧ y.src = .turn q slot ∧ y.target = t.toNat % 2 ^ 48
          ∧ y.mainCost = d.f 0x14 0 32 ∧ y.cls = s.qClass q ∧ y.mainAddr = d.f 0x30 0 48)
      ∧ (u.turn.ledgers.get {} (ledgerKey (s.qClass q) t.toNat)).main
          = (s.turn.ledgers.get {} (ledgerKey (s.qClass q) t.toNat)).main + d.f 0x14 0 32))
    ∧ (answer = some code → Desc.irq d = false → s.qPort q = some p → ¬ ((s.queue q).st = .error ∧ (s.queue q).cause = 4) → code < 256 →
        nextHas (exec (.turn q slot desc) s) (fun u => u.turn = s.turn ∧ u.mem = s.mem ∧ u.log = s.log
          ∧ ∃ bs, u.out = .hostWrite p (s.cqBase q + 16 * (s.queue q).cqTail) bs :: s.out ∧ bs.length = 16
            ∧ (bs.getD 6 0).toNat = code)))

/-- R217, R236, R237: a queued command that may start leaves the queue for its engines; one with a failed dependency ends with
DEP_FAILED (0x17); one that must wait stays.
R95, R238, R382: a command whose engines have finished retires: it is gone, what depends on it sees its status, and its flags are in
the flag sets of its core. One that a reset of its port stops retires at a tile boundary with 0xA2 (R466). A YIELD comes into force as it
retires (R501). -/
def Obligations.CommandLife : Prop :=
  (∀ (s : State) (c : Fin 128) (tag : Fin 4096) (x : Cmd), (s.core c).queued tag = some x → s.runOf c x.id = none → x.id < s.nextCmd →
    let left (u : State) : Prop := (∀ y ∈ (u.core c).queue, y.id ≠ x.id) ∧ u.turn = s.turn ∧ ∀ k, k ≠ c.val → u.core k = s.core k
    (s.readiness c x = .go → s.armHolds x = false → s.provFull c x = false → nextHas (exec (.commandStart c tag) s) (fun u =>
        left u ∧ ∃ r, u.runOf c x.id = some r ∧ r.cmd = x ∧ r.stages.length = x.descs.length))
    ∧ (s.readiness c x = .fail → nextHas (exec (.commandStart c tag) s) (fun u =>
        left u ∧ ∃ r, u.runOf c x.id = some r ∧ r.cmd = x ∧ r.done = true ∧ r.status = 0x17))
    ∧ (s.readiness c x = .wait → nextHas (exec (.commandStart c tag) s) (fun u => u = s)))
  ∧ (∀ (s : State) (c : Fin 128) (tag : Fin 4096) (r : Run), (s.core c).run tag = some r → s.runOf c r.cmd.id = some r →
    let left (u : State) : Prop := ∀ y ∈ (u.core c).running, y.cmd.id ≠ r.cmd.id
    let gone (u : State) : Prop := left u
      ∧ (∀ k, (u.core c).flags.get 0 k = (r.sets.filter (fun f => f.1 == k)).foldl (fun a f => a ||| f.2) ((s.core c).flags.get 0 k))
    let code := if r.status = 0 ∧ r.changed = true then 0x25 else r.status
    let ready : Prop := r.done = true ∧ r.replaying = false ∧ r.stages.any (·.busy) = false
    (s.portStops r.cmd = false → ready → nextHas (exec (.commandRetire c tag) s) (fun u => gone u
        ∧ (u.core c).doneStatus.find? r.cmd.id = some code))
    ∧ (s.portStops r.cmd = false → ¬ ready → nextHas (exec (.commandRetire c tag) s) (fun u => u = s))
    ∧ (s.portStops r.cmd = true → s.runAtBoundary c r = true → nextHas (exec (.commandRetire c tag) s) (fun u => left u
        ∧ (u.core c).doneStatus.find? r.cmd.id = some (if r.status = 0 then 0xA2 else r.status)))
    ∧ (Desc.cls r.cmd.desc = 11 → r.replaying = false → nextHas (exec (.yield c tag) s) (fun u => gone u
        ∧ (u.core c).doneStatus.find? r.cmd.id = some code
        ∧ (u.core c).yield = if r.status ≠ 0 then (s.core c).yield
            else if Desc.f r.cmd.desc 0x14 8 1 = 1 then none else some r.cmd.desc)))

/-! ### The matrix engine (04_matrix_engine.md, 05_accumulator_memory_and_reductions.md) -/

/-- R102, R109, R138, R140: the first tile step of an output tile makes its slot FILLING, with its entries 0 unless the command
continues a KEPT slot (INIT), and reserves the handle's place unless it keeps the slot (KEEP); without a slot or room in the Hatch
the engine waits. A later step goes straight into the array. A stage without input waits too (R260).
R103, R123, R124, R138, R144, R150, R521: when the last tile step of a tile passes its checks the slot is READY and its handle joins
the Hatch, or KEPT; an earlier one leaves the tile for the next step; a step that fails a check is recorded and its command waits for a
replay, and a failing replay ends with 0x30. An error that no check finds passes. A step of a command that has been stopped ends
without effect. -/
def Obligations.TileSteps : Prop :=
  (∀ (s : State) (c : Fin 128) (k : Fin 6) (r : Run), s.mmaRun c k = some r → s.runOf c r.cmd.id = some r →
    let d := r.desc k
    let i := s.under c
    let p := s.phy i
    let x := r.stage k
    let g := d.tileGeo x.tile
    let old := p.slot g.slot
    let frees : Prop := if d.init then old.st = .kept
      else old.st = .free ∧ (d.mode.wide = true → (p.slot (g.slot + 1)).st = .free)
    let room : Prop := d.keep = true ∨ p.hatch.length + s.reservedOn c < 8
    let stays (u : State) (P : StageRun → Prop) : Prop := u.mem = s.mem ∧ runsOn c r s u (fun y => P (y.stage k) ∧ y.done = r.done)
    (s.present c = true → s.arrayBusy c = false → s.stageMay c r k = true → s.higherMma c r k = false → s.mxStops c r = false →
      (x.step ≠ 0 → nextHas (exec (.tileStepStart c k) s) (fun u => u.phy i = { p with mxAccWait := false, mxHatchWait := false }
          ∧ stays u (fun y => y = { x with busy := true, started := true, reserved := !d.keep })))
      ∧ (x.step = 0 → frees → room → nextHas (exec (.tileStepStart c k) s) (fun u =>
          ((u.phy i).slot g.slot).st = .filling ∧ ((u.phy i).slot g.slot).count = (if d.init then old.count + 1 else 1)
            ∧ ((u.phy i).slot g.slot).cmd = r.cmd.id ∧ ((u.phy i).slot g.slot).pair = d.mode.wide ∧ (u.phy i).hatch = p.hatch
            ∧ (d.init = false → ∀ a b, a < g.rows → b < g.cols → (u.phy i).accGet d.mode.wide g.slot a b = 0)
            ∧ (d.init = true → (u.phy i).acc = p.acc)
            ∧ stays u (fun y => y = { x with busy := true, started := true, reserved := !d.keep })))
      ∧ (x.step = 0 → ¬ (frees ∧ room) → nextHas (exec (.tileStepStart c k) s) (fun u =>
          (¬ frees → (u.phy i).mxAccWait = true) ∧ (¬ room → (u.phy i).mxHatchWait = true)
            ∧ (u.phy i).acc = p.acc ∧ (u.phy i).slots = p.slots ∧ (u.phy i).hatch = p.hatch
            ∧ stays u (fun y => y = { x with started := true }))))
    ∧ (r.replaying = false → s.arrayBusy c = false → r.roundReady k = false → x.done = false →
        nextHas (exec (.tileStepStart c k) s) (fun u => u.phy i = { p with mxAccWait := true, mxHatchWait := false }
          ∧ stays u (fun y => y = { x with started := true }))))
  ∧ (∀ (s : State) (c : Fin 128) (r : Run) (k : Nat) (err : Option ArrayErr),
    (s.core c).running.find? (fun r => r.stages.any (·.busy)) = some r → r.stages.findIdx? (·.busy) = some k →
    s.runOf c r.cmd.id = some r → (s.phy (s.under c)).spdUps = [] → (s.phy (s.under c)).accUps = [] →
    let d := r.desc k
    let i := s.under c
    let p := s.phy i
    let x := r.stage k
    let g := d.tileGeo x.tile
    let fails : Prop := ∃ e, err = some e ∧ p.failing d (r.mmaBases k) g x.step e ≠ []
    let code := if r.status = 0 then 0x30 else r.status
    (r.done = false → ¬ fails → nextHas (exec (.tileStepComplete c err) s) (fun u => u.mem = s.mem
      ∧ (x.step + 1 < tileSteps d g → (u.phy i).hatch = p.hatch ∧ runsOn c r s u (fun y =>
          y.stage k = { x with step := x.step + 1, busy := false }))
      ∧ (tileSteps d g ≤ x.step + 1 → (x.tile + 1 < d.tm * d.tn → runsOn c r s u (fun y =>
            y.stage k = { x with tile := x.tile + 1, step := 0, busy := false, reserved := false }))
          ∧ (d.tm * d.tn ≤ x.tile + 1 → runsOn c r s u (fun y => (y.stage k).round = x.round + 1 ∧ (y.stage k).reserved = false
              ∧ (r.stages.length = 1 → r.rounds ≤ x.round + 1 → y.done = true)))
          ∧ (d.keep = false → (u.phy i).hatch = p.hatch ++ [handleOf d g r.cmd.tag (ctxThread r.cmd.ctx)]
              ∧ ((u.phy i).slot g.slot).st = .ready)
          ∧ (d.keep = true → (u.phy i).hatch = p.hatch ∧ ((u.phy i).slot g.slot).st = .kept))))
    ∧ (r.done = false → fails → s.overrunning r.cmd = false → r.again = false → r.isChain = false →
        nextHas (exec (.tileStepComplete c err) s) (fun u => u.phys = s.phys ∧ waitsForReplay c r s u))
    ∧ (r.done = false → fails → s.overrunning r.cmd = false → r.again = true →
        nextHas (exec (.tileStepComplete c err) s) (fun u => ∃ y, u.runOf c r.cmd.id = some y ∧ y.done = true ∧ y.status = code))
    ∧ (r.done = false → fails → s.overrunning r.cmd = true → nextHas (exec (.tileStepComplete c err) s) (fun u => u.phys = s.phys
        ∧ u.sill = s.sill ∧ ∃ y, u.runOf c r.cmd.id = some y ∧ y.replaying = r.replaying ∧ y.cmd = r.cmd))
    ∧ (r.done = true → nextHas (exec (.tileStepComplete c err) s) (fun u => u = { s with log := u.log } ∧ runsOn c r s u (fun y =>
        y.stage k = { x with busy := false } ∧ y.done = true))))

/-- R241, R243: an MMA of one tile step whose slot is FREE runs to its end and pushes one handle; any MMA goes on as far as slots and
Hatch permit, within its own core; one that has waited without a vector command is an orphan and ends with HATCH_ORPHAN (0x1C), its
handles and slots given up. MXE_INJECT is written only on a core that holds no logical slot (R129). -/
def Obligations.MatrixCommands : Prop :=
  ∀ (s : State) (c : Fin 128) (tag : Fin 4096) (r : Run), (s.core c).run tag = some r → s.runOf c r.cmd.id = some r →
    Desc.cls r.cmd.desc = 1 → r.stages.length = 1 →
    let d : Desc := r.cmd.desc
    let i := s.under c
    let p := s.phy i
    let g := Desc.tileGeo d 0
    nextHas (exec (.mma c tag) s) (fun u => u.mem = s.mem ∧ runsOn c r s u (fun y => y.status = r.status ∨ r.status = 0))
    ∧ (s.stageMay c r 0 = true → r.stage 0 = {} → s.mxStops c r = false → Desc.tm d * Desc.tn d = 1 → tileSteps d g = 1 →
      Desc.init d = false → Desc.keep d = false → (p.slot g.slot).st = .free → (p.slot (g.slot + 1)).st = .free →
      p.hatch.length + s.reservedOn c < 8 → p.spdUps = [] → p.accUps = [] →
      nextHas (exec (.mma c tag) s) (fun u => (u.phy i).hatch = p.hatch ++ [handleOf d g r.cmd.tag (ctxThread r.cmd.ctx)]
        ∧ ((u.phy i).slot g.slot).st = .ready ∧ u.mem = s.mem ∧ runsOn c r s u (fun y => y.done = true ∧ y.status = r.status)))
    ∧ ((s.core c).running.find? (fun r => !r.done && Desc.cls r.cmd.desc == 1) = some r → r.status = 0 →
      p.mxAccWait = true ∨ p.mxHatchWait = true →
      (∀ x ∈ (s.core c).queue, 1 ∉ x.engines) → (∀ x ∈ (s.core c).running, 1 ∉ x.engines) →
      nextHas (exec (.hatchOrphan c) s) (fun u => (∃ y, u.runOf c r.cmd.id = some y ∧ y.done = true ∧ y.status = 0x1C)
        ∧ (u.phy i).mxAccWait = false ∧ (u.phy i).mxHatchWait = false
        ∧ (u.phy i).hatch = p.hatch.filter (fun h => (p.slot (bits h 0 3)).cmd != r.cmd.id)
        ∧ ∀ t, t < 8 → (p.slot t).pair = false → (p.slot t).cmd = r.cmd.id →
            (p.slot t).st ∈ [SlotState.kept, .ready, .filling, .poisoned] → ((u.phy i).slot t).st = .free))
    ∧ ∀ (rq : Requester) (q : Fin 136) (v : Word), s.hears rq = true →
      (s.logOf q = none → nextHas (exec (.mxeInject rq q v) s) (fun u => u = { s with regs := u.regs }
        ∧ u.reg (coreWin q + 0x1008) = (v &&& 0x3FFFF) ∧ ∀ k, k ≠ coreWin q + 0x1008 → u.reg k = s.reg k))
      ∧ (s.logOf q ≠ none → nextHas (exec (.mxeInject rq q v) s) (fun u => u = s))

/-- R113: the entry after a ZI8 group is the exact sum of the entry and the products, held within 32 bits at the nearer bound;
overflow and inexact are raised when it does not fit, and no flag otherwise. -/
def Obligations.IntegerGroup : Prop :=
  ∀ (c : Int) (ab : List (Int × Int)),
    let sum := c + (ab.map (fun p => p.1 * p.2)).sum
    let fits : Prop := -(2 ^ 31) ≤ sum ∧ sum ≤ 2 ^ 31 - 1
    (foldInt c ab).1 = max (-(2 ^ 31)) (min (2 ^ 31 - 1) sum)
      ∧ (fits → (foldInt c ab).2 = 0) ∧ (¬ fits → (foldInt c ab).2 = fOverflow ||| fInexact)

/-- R251: of the turns that agree with TTURN in their low 16 bits the Z8 takes the nearest to the present one, n, and of two as near the
later one; so it lies from n - 32,767 to n + 32,768, and no other turn does. -/
def Obligations.TurnResolution : Prop :=
  ∀ (s : State) (tturn : Nat), tturn < 2 ^ 16 →
    let n : Int := s.turnNo
    let T := s.resolveTurn tturn
    (T - tturn) % 2 ^ 16 = 0 ∧ n - 32767 ≤ T ∧ T ≤ n + 32768
      ∧ (∀ x : Int, (x - tturn) % 2 ^ 16 = 0 → x ≠ T → max (T - n) (n - T) < max (x - n) (n - x)
          ∨ (max (T - n) (n - T) = max (x - n) (n - x) ∧ x < T))

/-- R61, R66 to R68: rounding an encoding's own value gives that encoding back with no flag raised, in every rounding mode that
the format takes: no bit of a finite value is lost on its way through a wider format. -/
def Obligations.EncodingsRoundTrip : Prop :=
  ∀ (rnd x seed idx : Nat) (sat : Bool), rnd ≤ 5 →
    (rnd ≠ 5 → x < 2 ^ 32 → x / 2 ^ 23 % 256 ≠ 255 → packLong pB32 rnd (vB32 x) = (x, 0))
    ∧ (rnd ≠ 5 → x < 2 ^ 64 → x / 2 ^ 52 % 2048 ≠ 2047 → packLong pB64 rnd (vB64 x) = (x, 0))
    ∧ (rnd = 0 ∨ rnd = 5 →
      (x < 2 ^ 16 → x / 2 ^ 7 % 256 ≠ 255 → packShort 2 rnd sat seed idx (decodeIeee pZf16 x) = (x, 0))
      ∧ (x < 2 ^ 8 → x ≠ 0x80 → packShort 3 rnd sat seed idx (decodeE4 x) = (x, 0))
      ∧ (x < 2 ^ 8 → x / 4 % 32 ≠ 31 → packShort 4 rnd sat seed idx (decodeIeee pE5 x) = (x, 0)))

/-! ### Attention, chains, transfers and reductions (09_attention_and_revolve.md, 13_scratchpad_and_transfers.md) -/

/-- R123, R268, R271, R274, R277: an ATTB whose four slots are FREE is computed and finishes, forward or backward, with every error that
no check finds; it writes the scratchpad and the accumulators of its own core. One that a check or a row check stops waits for a replay;
without the slots the engine waits.
R244, R258, R259: a vector command, or any stage of a CHAIN, goes on as far as it can, within its own core; a register-mode program
of VEND alone ends at once: a VOP is done, and a vector stage of a CHAIN has run its round. -/
def Obligations.EnginePrograms : Prop :=
  (∀ (s : State) (c : Fin 128) (tag : Fin 4096) (r : Run) (err : Option ArrayErr), (s.core c).run tag = some r →
    s.runOf c r.cmd.id = some r → Desc.cls r.cmd.desc = 2 → r.stages.length = 1 →
    let d : Desc := r.cmd.desc
    let i := s.under c
    let p := s.phy i
    let sl := Desc.f d 0x2A 4 3
    let idle : Prop := ∀ t, t < 4 → (p.slot (sl + t)).st = .free
    let q : Phys := { p with mxAccWait := false }
    let out := if Desc.f d 0x2A 2 1 = 1 then q.attbBackward d err else q.attbForward d (s.draw 32).toNat err
    let good : Prop := out.fails = [] ∧ out.badRows = []
    (r.done = false → r.replaying = false → idle → p.spdUps = [] → good → nextHas (exec (.attb c ⟨tag, err⟩) s) (fun u =>
      runsOn c r s u (fun y => y.done = true ∧ y.status = r.status) ∧ (readsNoBank s c r.cmd.id → u.mem = s.mem)
        ∧ u.phy i = { p with
          spd := (u.phy i).spd, acc := (u.phy i).acc, accFree := (u.phy i).accFree, accUps := (u.phy i).accUps, mxAccWait := false }))
    ∧ (r.done = false → r.replaying = false → idle → p.spdUps = [] → ¬ good → s.overrunning r.cmd = false → r.again = false →
        nextHas (exec (.attb c ⟨tag, err⟩) s) (fun u => u.phys = s.phys ∧ waitsForReplay c r s u))
    ∧ (r.done = false → r.replaying = false → ¬ idle → nextHas (exec (.attb c ⟨tag, err⟩) s) (fun u =>
        u = { s with phys := u.phys, log := u.log } ∧ u.phy i = { p with mxAccWait := true }
          ∧ runsOn c r s u (fun y => y.done = false ∧ y.status = r.status)))
    ∧ (r.done = true ∨ r.replaying = true → nextHas (exec (.attb c ⟨tag, err⟩) s) (fun u => u = s)))
  ∧ (∀ (s : State) (c : Fin 128) (tag : Fin 4096) (k : Fin 6) (r : Run), (s.core c).run tag = some r → s.runOf c r.cmd.id = some r →
    let i := s.under c
    let ends (n : Nat) (P : Run → Prop) (u : State) : Prop := u.mem = s.mem ∧ (u.phy i).acc = (s.phy i).acc
      ∧ runsOn c r s u (fun y => P y ∧ (y.stage n).round = (r.stage n).round + 1)
    let program (n : Nat) : Prop := s.stageMay c r n = true ∧ (r.stage n).started = false ∧ Desc.cls (r.desc n) = 4
      ∧ Desc.f (r.desc n) 0x16 0 1 = 0 ∧ (s.phy i).spdN (Desc.f (r.desc n) 0x10 0 32) 4 = 1 ∧ (s.phy i).spdUps = []
    (Desc.cls r.cmd.desc = 4 → nextHas (exec (.vop c tag) s) (fun u => runsOn c r s u (fun y => y.stages.length = r.stages.length)))
    ∧ (Desc.cls r.cmd.desc = 3 → nextHas (exec (.chain c tag k) s) (fun u => runsOn c r s u (fun y => y.stages.length = r.stages.length)))
    ∧ (Desc.cls r.cmd.desc = 4 → r.stages.length = 1 → r.stage 0 = {} → program 0 →
        nextHas (exec (.vop c tag) s) (ends 0 (fun y => y.done = true)))
    ∧ (Desc.cls r.cmd.desc = 3 → program k → s.yields c r k = false → nextHas (exec (.chain c tag k) s) (ends k (fun y => y.cmd = r.cmd))))

/-- R139, R376, R382, R384, R385: a transfer whose ACC ends are free issues or moves all its rows, between whatever ends and formats;
with TRACK and another EXPECT it ends with 0x24; a transfer of one row between scratchpad ranges in one format copies the row and is
done. An XFER with VERIFY is done when GEN is what the transfer of DEP0 sampled, and ends with 0x25 otherwise.
R441, R453, R454: a GATH issues everything, and its instance waits for the other shards of its replica; a SCAT issues its writes, and
is done when none is outstanding. With RES a test that fails ends either with its code, with nothing sent. -/
def Obligations.TransfersAndMessages : Prop :=
  (∀ (s : State) (c : Fin 128) (tag : Fin 4096) (r : Run), (s.core c).run tag = some r → s.runOf c r.cmd.id = some r →
    Desc.cls r.cmd.desc = 6 → r.stages.length = 1 →
    let d : Desc := r.cmd.desc
    let i := s.under c
    let n := Desc.xSrcRow d
    let a := Desc.f d 0x10 0 64
    let b := Desc.f d 0x18 0 64
    let expect := Desc.f d 0x3C 0 32
    let stale : Prop := Desc.xTrack d = true ∧ r.g0.find? 0 = none ∧ expect ≠ 0xFFFFFFFF ∧ expect ≠ s.regionGen (Desc.xRegion d)
    (Desc.xVerify d = false → (r.stage 0).waiting = [] →
      (s.stageMay c r 0 = true → (r.stage 0).started = false → s.accBusy c r 0 = false →
        (¬ stale → nextHas (exec (.xfer c tag) s) (fun u => runsOn c r s u (fun y => y.issuedAll = true)))
        ∧ (stale → nextHas (exec (.xfer c tag) s) (fun u => u.phys = s.phys ∧ (readsNoBank s c r.cmd.id → u.mem = s.mem)
            ∧ runsOn c r s u (fun y => y.done = true ∧ y.status = if r.status = 0 then 0x24 else r.status))))
      ∧ (s.stageMay c r 0 = false ∨ (r.stage 0).started = true ∨ s.accBusy c r 0 = true →
          nextHas (exec (.xfer c tag) s) (fun u => u = s)))
    ∧ (Desc.xVerify d = false → Desc.xTrack d = false → Desc.xSrcKind d = 0 → Desc.xDstKind d = 0 → Desc.xRows d = 1 →
      Desc.xSrcFmt d = Desc.xDstFmt d → Desc.lsUses d = false → a + n ≤ spdSize → b + n ≤ spdSize → (s.phy i).spdUps = [] →
      s.stageMay c r 0 = true → r.stage 0 = {} → r.status = 0 → r.outstanding = 0 → nextHas (exec (.xfer c tag) s) (fun u =>
        runsOn c r s u (fun y => y.done = true ∧ y.status = 0) ∧ u.mem = s.mem
          ∧ (∀ j, j < n → (u.phy i).spdByte (b + j) = (s.phy i).spdByte (a + j))
          ∧ (∀ j, j < b ∨ b + n ≤ j → (u.phy i).spdByte j = (s.phy i).spdByte j)))
    ∧ (Desc.xVerify d = true → s.stageMay c r 0 = true → ∀ dep rest, r.cmd.deps = dep :: rest →
      let same : Prop := (s.core c).samples.find? dep = some (s.regionGen (Desc.xRegion d))
      (same → r.rounds ≤ (r.stage 0).round + 1 → nextHas (exec (.xferVerify c tag) s) (fun u => u.mem = s.mem ∧ u.phys = s.phys
        ∧ runsOn c r s u (fun y => y.done = true ∧ y.status = r.status)))
      ∧ (¬ same → nextHas (exec (.xferVerify c tag) s) (fun u => (readsNoBank s c r.cmd.id → u.mem = s.mem) ∧ u.phys = s.phys
        ∧ runsOn c r s u (fun y => y.done = true ∧ y.status = if r.status = 0 then 0x25 else r.status))))
    ∧ (Desc.xVerify d = true → s.stageMay c r 0 = false → nextHas (exec (.xferVerify c tag) s) (fun u => u = s)))
  ∧ (∀ (s : State) (c : Fin 128) (tag : Fin 4096) (r : Run), (s.core c).run tag = some r → s.runOf c r.cmd.id = some r →
    r.issuedAll = false → r.done = false →
    let d : Desc := r.cmd.desc
    let g := Desc.f d 0x28 0 6
    let i := Desc.f d 0x28 6 10
    let inner := s.inner g
    let row := s.gf g 8 12 12 * inner
    let shards := (upTo (inner - 1)).map (fun j => (s.member (s.gf g 0x10 0 48) (row + (s.gf g 8 0 12 + 1 + j) % inner),
      fmtBytes (Desc.f d 0x24 0 4) (Desc.f d 0x20 0 32 + 1)))
    let writes := r.cmd.stages.map (fun e => ((scatEntry e).1, (scatEntry e).2.2.2))
    let refused (code : Nat) (u : State) : Prop := u.msg = s.msg
      ∧ ∃ y, u.runOf c r.cmd.id = some y ∧ y.done = true ∧ y.status = if r.status = 0 then code else r.status
    (Desc.cls d = 7 → s.reds.find? (treeKey (g + 64 * i) true) = none → (∀ x, s.inst? g i = some x → x.begun = false) →
      (∀ code, Desc.f d 0x24 13 1 = 1 → s.reserve_ r.cmd.part shards = .inl code →
          nextHas (exec (.gath c tag) s) (refused code))
      ∧ (Desc.f d 0x24 13 1 = 0 ∨ (s.reserve_ r.cmd.part shards).isRight = true → nextHas (exec (.gath c tag) s) (fun u =>
          ∃ y, u.runOf c r.cmd.id = some y ∧ y.issuedAll = true ∧ y.cmd = r.cmd))
      ∧ (Desc.f d 0x24 13 1 = 0 → s.inst? g i = none → 2 ≤ inner → nextHas (exec (.gath c tag) s) (fun u =>
          (∃ y, u.runOf c r.cmd.id = some y ∧ y.issuedAll = true ∧ y.done = false ∧ y.cmd = r.cmd)
            ∧ ∃ x, u.inst? g i = some x ∧ x.gath = true ∧ x.begun = true ∧ x.contribs = [(c.val, r.cmd.id)])))
    ∧ (Desc.cls d = 8 →
      (∀ code, Desc.f d 0x18 16 1 = 1 → s.reserve_ r.cmd.part writes = .inl code →
          nextHas (exec (.scat c tag) s) (refused code))
      ∧ (Desc.f d 0x18 16 1 = 0 ∨ (s.reserve_ r.cmd.part writes).isRight = true → nextHas (exec (.scat c tag) s) (fun u =>
          (readsNoBank s c r.cmd.id → Desc.f d 0x18 16 1 = 0 → u.mem = s.mem) ∧ u.msg.next ≤ s.msg.next + r.cmd.stages.length
            ∧ ∃ y, u.runOf c r.cmd.id = some y ∧ y.issuedAll = true ∧ y.cmd = r.cmd ∧ (y.done = true ∨ 0 < y.outstanding)))))

/-- R154, R155, R235, R248, R249, R326, R512: every RED that may issue does; the first of a reduction on several cores puts its leaf into
the tree and waits, and one that disagrees with the first ends the reduction with 0x1E; two nodes combine into their parent, and the root
ends the tree; a sum whose residue check fails twice, and a contributor that does not come in time, end the
reduction with 0x30 and 0x1F. -/
def Obligations.ReductionTree : Prop :=
  ∀ (s : State) (c : Fin 128) (tag : Fin 4096) (r : Run) (module : Bool) (rid : Fin 65536) (t : RedTree) (level : Fin 32)
    (lo : Fin 128) (a b : NodeVal),
    let key := rid.val + 65536 * b2n module
    let n (d : Desc) : Nat := (maskCores (Desc.f d 0x10 0 128)).length
    let failed (u : State) (code : Nat) : Prop := u.reds.find? key = none ∧ ∀ x ∈ t.cores, ∀ r, s.runOf x.1 x.2 = some r →
      r.status = 0 → ∃ y, u.runOf x.1 x.2 = some y ∧ y.done = true ∧ y.status = code
    ((s.core c).run tag = some r → s.runOf c r.cmd.id = some r → Desc.cls r.cmd.desc = 5 → r.issuedAll = false → r.done = false →
      r.replaying = false → redKey r.cmd.desc = key →
      (s.redWaits c r.cmd.desc = true → nextHas (exec (.red c tag) s) (fun u => u = s))
      ∧ (s.redWaits c r.cmd.desc = false → (s.phy (s.under c)).spdUps = [] →
        nextHas (exec (.red c tag) s) (fun u => ∃ y, u.runOf c r.cmd.id = some y ∧ y.issuedAll = true ∧ y.cmd = r.cmd)
        ∧ (s.reds.find? key = some t → module = false → redAgree t.desc r.cmd.desc = false → nextHas (exec (.red c tag) s) (fun u =>
            u.reds.find? key = none ∧ ∃ y, u.runOf c r.cmd.id = some y ∧ y.done = true
              ∧ y.status = if r.status = 0 then 0x1E else r.status))
        ∧ (s.reds.find? key = none → 2 ≤ n r.cmd.desc → nextHas (exec (.red c tag) s) (fun u =>
            (∃ y, u.runOf c r.cmd.id = some y ∧ y.issuedAll = true ∧ y.done = false)
              ∧ (Desc.lsUses r.cmd.desc = false → module = false → u.mem = s.mem)
              ∧ ∃ t, u.reds.find? key = some t ∧ t.desc = r.cmd.desc ∧ t.cores = [(c.val, r.cmd.id)] ∧ t.nodes.length = 1))))
    ∧ (s.reds.find? key = some t → t.cores.length < n t.desc → nextHas (exec (.redTimeout module rid) s) (fun u => failed u 0x1F))
    ∧ (s.reds.find? key = some t → n t.desc ≤ t.cores.length → nextHas (exec (.redTimeout module rid) s) (fun u => u = s))
    ∧ (s.reds.find? key = some t → 0 < level.val → t.nodes.find? (128 * (level - 1) + lo) = some a →
      t.nodes.find? (128 * (level - 1) + lo + 2 ^ (level.val - 1)) = some b →
      let L := passUp (n t.desc) lo 64 level
      ((L ≠ treeDepth (n t.desc) ∨ lo.val ≠ 0) → t.nodes.find? (128 * treeDepth (n t.desc)) = none →
        nextHas (exec (.treeNodeCombine module rid none level lo 0) s) (fun u => u.mem = s.mem
          ∧ ∃ y v, u.reds.find? key = some y ∧ y.nodes.find? (128 * L + lo) = some v ∧ v.els = (redNode t.desc a.els b.els).1))
      ∧ (redOp t.desc = 0 → nextHas (exec (.treeNodeCombine module rid none level lo 2) s) (fun u => failed u 0x30))
      ∧ (L = treeDepth (n t.desc) → lo.val = 0 → module = false → t.cores ≠ [] →
        nextHas (exec (.treeNodeCombine module rid none level lo 0) s) (fun u => u.reds.find? key = none)))

/-! ### Vector instructions (06_vector_engine.md) -/

/-- R173, R174, R179: an element-wise instruction writes its operation of the first VL elements of its sources to VD, and nothing else. -/
def Obligations.VectorElementwise : Prop :=
  ∀ (s : State) (c : Fin 128) (r : Run) (k : Nat) (ins : BitVec 32), vecReady s c r k →
    let p := s.phy (s.under c)
    let v := vIns ins.toNat
    let rnd := rndFor 0 (Desc.rnd (r.desc k))
    let F := longFmt v.w
    let D := decodeIeee F
    let B := if v.w then 64 else 32
    let a (e : Nat) : Nat := p.el v.w v.va e
    let b (e : Nat) : Nat := p.bcast v.w v.bb v.vb (p.rowTag v.va) e
    let d (e : Nat) : Nat := p.bcast v.w v.bc v.vc (p.rowTag v.va) e
    ∀ q ∈ [
        (0x08, Instr.vadd c ins, fun e => (addLong F rnd (D (a e)) (D (b e))).1),
        (0x09, .vsub c ins, fun e => (addLong F rnd (D (a e)) (D (b e)).neg).1),
        (0x0A, .vmul c ins, fun e => (mulLong F rnd (D (a e)) (D (b e))).1),
        (0x0B, .vmax c ins, fun e => (pickNode 1 F (a e) (b e)).1), (0x0C, .vmin c ins, fun e => (pickNode 2 F (a e) (b e)).1),
        (0x0D, .vabs c ins, fun e => a e % 2 ^ (B - 1)), (0x0E, .vneg c ins, fun e => (a e + 2 ^ (B - 1)) % 2 ^ B),
        (0x0F, .vscl2 c ins, fun e => (packLong F rnd ((D (a e)).scale (signed 32 (b e)))).1),
        (0x10, .vcmp c ins, fun e => if (vCompare v.vc (D (a e)) (D (b e))).1 then 2 ^ B - 1 else 0),
        (0x11, .vsel c ins, fun e => if d e ≠ 0 then a e else b e),
        (0x13, .vand c ins, fun e => a e &&& b e), (0x14, .vor c ins, fun e => a e ||| b e), (0x15, .vxor c ins, fun e => a e ^^^ b e),
        (0x18, .vfma c ins, fun e => (fmaLong F rnd (D (a e)) (D (b e)) (D (d e))).1),
        (0x19, .vdiv c ins, fun e => (divLong F rnd (D (a e)) (D (b e))).1),
        (0x1A, .vsqrt c ins, fun e => (sqrtLong F rnd (D (a e))).1), (0x1B, .vrsq c ins, fun e => (rsqLong F rnd (D (a e))).1),
        (0x20, .vexp2 c ins, fun e => (exp2 (vB32 (fmaLong pB32 0 (D (a e)) (D (b e)) (D (d e)).neg).1)).1)],
      vFieldOk { v with op := q.1 } false = true → 0 < p.vl → p.vl ≤ vlMax { v with op := q.1 } →
      nextHas (exec q.2.1 s) (fun u => vecWent s u c r k ∧ vecWrote s u c v.w v.vd p.vl q.2.2 ∧ (u.phy (s.under c)).spd = p.spd)

/-- R174, R180, R184 to R186: conversions, reductions, permutations and summaries. -/
def Obligations.VectorRearranges : Prop :=
  ∀ (s : State) (c : Fin 128) (r : Run) (k : Nat) (ins : BitVec 32), vecReady s c r k →
    let p := s.phy (s.under c)
    let v := vIns ins.toNat
    let rnd := rndFor 0 (Desc.rnd (r.desc k))
    let F := longFmt v.w
    let n := p.vl
    let a (e : Nat) : Nat := p.el v.w v.va e
    let b (e : Nat) : Nat := p.bcast v.w v.bb v.vb (p.rowTag v.va) e
    let els := (List.range n).map a
    let valid (op : Nat) : Prop := vFieldOk { v with op := op } false = true ∧ 0 < n ∧ n ≤ vlMax { v with op := op }
    let gives (i : Instr) (wide : Bool) (m : Nat) (f : Nat → Nat) : Prop := nextHas (exec i s) (fun u =>
      vecWent s u c r k ∧ vecWrote s u c wide v.vd m f ∧ (u.phy (s.under c)).spd = p.spd)
    (valid 0x12 →
      (v.vc = 0 → gives (.vcvt c ins) false n (fun e => (toInt32 rnd (vB32 (a e))).1))
      ∧ (v.vc = 1 → gives (.vcvt c ins) false n (fun e => (packLong pB32 rnd (intVal (signed 32 (a e)))).1))
      ∧ (v.vc = 2 → gives (.vcvt c ins) true n (fun e => (packLong pB64 rnd (vB32 (a e))).1))
      ∧ (v.vc = 3 → gives (.vcvt c ins) false n (fun e => (packLong pB32 rnd (vB64 (p.el true v.va e))).1)))
    ∧ (valid 0x28 → gives (.vred c ins) v.w 1 (fun _ => (treeReduce (v.vc % 4) F els).1))
    ∧ (valid 0x29 → gives (.vtop8 c ins) false 32 (fun e =>
        (topWords (topOf v.w (els.zipIdx.map (fun x => (x.1, (x.2 + Desc.f (r.desc k) 0x38 0 64) % 2 ^ 64)))).1).getD e 0))
    ∧ (valid 0x2A → nextHas (exec (.vsum c ins) s) (fun u => vecWent s u c r k ∧ (u.phy (s.under c)).vregs = p.vregs
        ∧ ∃ y, u.runOf c r.cmd.id = some y ∧ y.sums.find? (4 * ctxThread r.cmd.ctx + v.vd) = some (summaryOf v.vc v.w els).1))
    ∧ (valid 0x30 → gives (.vperm c ins) v.w n (fun e =>
        let j := b e % 2 ^ 32
        if j < n then a j else if v.vc = 1 then a (j % n) else 0))
    ∧ (valid 0x31 → gives (.vrev c ins) v.w n (fun e => a (n - 1 - e)))
    ∧ (valid 0x32 → gives (.vrot c ins) v.w n (fun e => a ((e + p.el false v.vb 0) % n)))
    ∧ (valid 0x33 → gives (.vzip c ins) v.w (2 * (n / 2)) (fun e => if e % 2 = 0 then a (e / 2) else b (e / 2)))

/-- R101, R151, R169, R174, R176, R177, R191: VNOP, VSETVL, VPASS, VEND; VDRN and VPOP, which take rows and tiles from the accumulator,
pass over a POISONED tile and take none for a command that is being stopped; VLD and VST of binary32; what an instruction with a
reserved field does, and one beyond the longest program. -/
def Obligations.VectorControl : Prop :=
  ∀ (s : State) (c : Fin 128) (r : Run) (k : Nat) (ins : BitVec 32) (h : BitVec 64) (rest : List (BitVec 64)),
    let i := s.under c
    let p := s.phy i
    let v := vIns ins.toNat
    let n := p.vl
    let addr := p.el false v.vb 0
    let valid (op : Nat) : Prop := vFieldOk { v with op := op } false = true
    (vecReady s c r k →
      (valid 0 → nextHas (exec (.vnop c ins) s) (fun u => vecWent s u c r k ∧ u.phy i = { p with vpc := p.vpc + 1, hatchWait := false }))
      ∧ (valid 1 → nextHas (exec (.vend c ins) s) (fun u => u.mem = s.mem ∧ (u.phy i).vregs = p.vregs ∧ (u.phy i).cur = none
          ∧ ∃ y, u.runOf c r.cmd.id = some y ∧ (y.stage k).round = (r.stage k).round + 1))
      ∧ (valid 2 → v.imm < 512 → nextHas (exec (.vsetvl c ins) s) (fun u => vecWent s u c r k ∧ (u.phy i).vl = v.imm + 1
          ∧ (u.phy i).vregs = p.vregs))
      ∧ (valid 0x38 → p.cur = some h → hWide h = false → nextHas (exec (.vdrn c ins) s) (fun u => vecWent s u c r k
          ∧ (u.phy i).rowTag v.vd = 2 * v.imm ∧ vecWrote s u c false v.vd 512 (fun e =>
            if 2 * v.imm + e / 256 < hRows h ∧ e % 256 < hCols h then p.accGet false (hSlot h) (2 * v.imm + e / 256) (e % 256) else 0)))
      ∧ (valid 0x39 → s.overrunning r.cmd = false → r.regain = false → p.hatch = h :: rest → (p.slot (hSlot h)).pair = false →
          (p.slot (hSlot h)).st ≠ .poisoned → nextHas (exec (.vpop c ins) s) (fun u =>
            vecWent s u c r k ∧ (u.phy i).hatch = rest ∧ (u.phy i).cur = some h ∧ ((u.phy i).slot (hSlot h)).st = .draining
              ∧ vecWrote s u c false v.vd 2 (fun e => bits h (32 * e) 32)
              ∧ ∀ g, p.cur = some g → hSlot g ≠ hSlot h → ((u.phy i).slot (hSlot g)).st = .free))
      ∧ (valid 0x39 → s.overrunning r.cmd = false → r.regain = false ∨ p.cur = none → p.hatch = [] →
          nextHas (exec (.vpop c ins) s) (fun u => u = { s with phys := u.phys } ∧ u.phy i = { p.retireTile with hatchWait := true }))
      ∧ (valid 0x39 → s.overrunning r.cmd = false → r.regain = false → p.cur = none → p.hatch = [h] →
          (p.slot (hSlot h)).st = .poisoned → nextHas (exec (.vpop c ins) s) (fun u => u.mem = s.mem ∧ u.log = s.log
            ∧ (u.phy i).hatch = [] ∧ (u.phy i).hatchWait = true ∧ ((u.phy i).slot (hSlot h)).st = .free ∧ (u.phy i).vregs = p.vregs))
      ∧ (valid 0x39 → s.overrunning r.cmd = false → r.regain = true → p.cur = some h → p.hatch = [] →
          nextHas (exec (.vpop c ins) s) (fun u => vecWent s u c r k ∧ (u.phy i).cur = some h ∧ (u.phy i).slots = p.slots
            ∧ vecWrote s u c false v.vd 2 (fun e => bits h (32 * e) 32)))
      ∧ (valid 0x39 → s.overrunning r.cmd = true → p.hatch = [] → nextHas (exec (.vpop c ins) s) (fun u =>
          u = { s with phys := u.phys } ∧ u.phy i = { p.retireTile with hatchWait := true }))
      ∧ (0 < n → n ≤ 512 → v.vc = 0 → v.w = false → valid 0x3A → Desc.lsApply (r.desc k) = false → addr + 4 * n ≤ spdSize →
          nextHas (exec (.vld c ins) s) (fun u => vecWent s u c r k ∧ vecWrote s u c false v.vd n (fun e => p.spdN (addr + 4 * e) 4)
            ∧ (u.phy i).spd = p.spd))
      ∧ (0 < n → n ≤ 512 → v.vc = 0 → v.w = false → valid 0x3B → Desc.lsRemove (r.desc k) = false → addr + 4 * n ≤ spdSize →
          nextHas (exec (.vst c ins) s) (fun u => vecWent s u c r k ∧ (u.phy i).vregs = p.vregs
            ∧ (∀ e, e < n → (u.phy i).spdN (addr + 4 * e) 4 = p.el false v.va e)
            ∧ ∀ j, j < addr ∨ addr + 4 * n ≤ j → (u.phy i).spdByte j = p.spdByte j))
      ∧ (¬ valid 0x08 → r.status = 0 → nextHas (exec (.vadd c ins) s) (fun u => (u.phy i).vregs = p.vregs
          ∧ ∃ y, u.runOf c r.cmd.id = some y ∧ y.done = true ∧ y.status = 0x70)))
    ∧ (vecRuns s c r k → 1024 ≤ p.vpc → r.status = 0 → nextHas (exec (.vnop c ins) s) (fun u => (u.phy i).vregs = p.vregs
        ∧ ∃ y, u.runOf c r.cmd.id = some y ∧ y.done = true ∧ y.status = 0x73))
    ∧ (s.vecRun c = some (r, k) → s.runOf c r.cmd.id = some r → (r.stage k).started = true → p.stream = true →
        nextHas (exec (.vpass c ins) s) (fun u => u = { s with phys := u.phys } ∧ u.phy i = { p with pass := true }
          ∧ ∀ j, j ≠ i → u.phy j = s.phy j))

/-! ### Revolve, pages, shard groups (09 to 11) -/

/-- R282, R284, R289: a ring is armed when what its record says stands the checks of R282, and then two buffers are granted to LEFT; it
fails with cause RECORD when not. A hop starts once its block was there at a tick and its turn
has come, and not before. ABORT and STALL fail a live pass. -/
def Obligations.RingControl : Prop :=
  ∀ (s : State) (w : Writer) (r : Fin 16),
    let x := s.ring r
    let start := s.rf r 0x28 0 48
    let tph := s.rf r 0 8 4 + 1
    let h := x.started
    let failed (u : State) (cause : Nat) : Prop := u.ringState r = 4 ∧ u.rf r 0 24 4 = cause ∧ u.rf r 0x60 0 48 = s.turnNo
    let ready : Prop := (h = 0 ∧ x.tickOwn = true ∧ start ≤ s.turnNo)
      ∨ (h ≠ 0 ∧ h ≤ s.ringHops r ∧ h ≤ x.tickArrived ∧ h ≤ x.tickDone + 1 ∧ x.lastStart + tph ≤ s.turnNo)
    (s.writesFor w (s.ringPart r) = true →
      (s.ringLive r = false → s.ringOk r = true → nextHas (exec (.ringArm w r) s) (fun u => u.ringState r = 1 ∧ u.rf r 0 24 4 = 0
          ∧ u.rf r 0x50 0 12 = 0 ∧ u.ring r = { granted := 2 } ∧ (∀ k, k ≠ r.val → u.ring k = s.ring k)
          ∧ (stacksUp s → u.peekN (s.rf r 0x48 0 48) 8 = 0)))
      ∧ (s.ringLive r = false → s.ringOk r = false → nextHas (exec (.ringArm w r) s) (fun u => failed u 1 ∧ u.rings = s.rings))
      ∧ (s.ringLive r = true → exec (.ringArm w r) s = .next s)
      ∧ (s.ringLive r = true → nextHas (exec (.ringAbort w r) s) (fun u => failed u 6))
      ∧ (s.ringLive r = false → exec (.ringAbort w r) s = .next s))
    ∧ (s.writesFor w (s.ringPart r) = false → exec (.ringArm w r) s = .next s ∧ exec (.ringAbort w r) s = .next s)
    ∧ (s.ringState r = 2 → ready → nextHas (exec (.hopStart r) s) (fun u => u.rf r 0x50 0 12 = h % 4096 ∧ (u.ring r).started = h + 1
        ∧ (u.ring r).lastStart = s.turnNo ∧ (u.ring r).arrived = x.arrived
        ∧ u.rf r 0x54 0 32 = min (s.rf r 0x54 0 32 + if start + h * tph < s.turnNo then 1 else 0) (2 ^ 32 - 1)))
    ∧ (s.ringState r ≠ 2 ∨ ¬ ready → exec (.hopStart r) s = .next s)
    ∧ (s.ringLive r = true → s.rf r 0 16 8 ≤ x.stall → nextHas (exec (.ringStall r) s) (fun u => failed u 3))
    ∧ (x.stall < s.rf r 0 16 8 → exec (.ringStall r) s = .next s)

/-- R299, R301, R309: a pool whose record stands the checks of R299 is enabled with every page FREE and every node invalid, and refuses
otherwise; KICK reads the tail word; a page whose copy has come to its tier is SPILLED, one whose copy is back is FULL. -/
def Obligations.PoolStates : Prop :=
  ∀ (s : State) (w : Writer) (p : Fin 16) (v : Word) (page : BitVec 22),
    let k := page.toNat
    let x := s.pool p
    let s' := s.setRec (poolRec p) 8 24 (bits v 8 24)
    let quiet : Prop := ∀ y ∈ x.returns, y.target ≠ 0 ∨ y.started = true
    (s.writesFor w p = true →
      (s.poolOn p = false → s'.poolOk p = true → nextHas (exec (.poolEnable w p v) s) (fun u => u.poolOn p = true
          ∧ u.pf p 0 2 1 = 0 ∧ u.pf p 0xB0 0 32 = s.pf p 0x18 0 32 ∧ u.pf p 0 8 24 = bits v 8 24
          ∧ (bit v 1 = false → u.pool p = {} ∧ u.pf p 0x64 0 32 = 0 ∧ (∀ j, j < s.pf p 0x1C 0 32 → u.pageState p j = 0)
              ∧ ∀ i, i < 8 * s.pf p 0x38 0 32 → u.nodeValid p i = false)))
      ∧ (s.poolOn p = false → s'.poolOk p = false → nextHas (exec (.poolEnable w p v) s) (fun u =>
          u.poolOn p = false ∧ u.pf p 0 2 1 = 1 ∧ u.pools = s.pools))
      ∧ (s.poolOn p = true → nextHas (exec (.poolEnable w p v) s) (fun u => u.poolOn p = true))
      ∧ (s.poolOn p = true → nextHas (exec (.kick w p) s) (fun u => u.poolOn p = true
          ∧ u.pool p = { x with tail := s.peekN (s.pf p 0x68 0 48) 4 % (s.pf p 0x60 0 16 + 1) })))
    ∧ (s.writesFor w p = false → exec (.poolEnable w p v) s = .next s ∧ exec (.kick w p) s = .next s)
    ∧ (s.poolOn p = true → k ∈ x.pages → s.pageState p k = 3 → s.pageTier p k = 3 ∨ k ∈ x.acked → s.inPart p (s.pd p k) 8 = true →
        stacksUp s → quiet → nextHas (exec (.spillComplete p page) s) (fun u => u.pf p 0xB0 0 32 = min (s.pf p 0xB0 0 32 + 1) (2 ^ 32 - 1)
          ∧ u.pageState p k = (if s.pageRefs p k = 0 then 0 else 4) ∧ (s.pageRefs p k = 0 → k ∉ (u.pool p).pages)))
    ∧ (s.poolOn p = true → k ∈ x.pages → s.pageState p k = 5 → k ∈ x.landed → s.inPart p (s.pd p k) 8 = true → stacksUp s → quiet →
        ∃ t : State, exec (.returnComplete p page) s = .next t.releaseHolds ∧ t.pageState p k = (if s.pageRefs p k = 0 then 0 else 2)
          ∧ k ∉ (t.pool p).landed ∧ ∀ y, y ∈ (t.pool p).returns → y.page ≠ k)

/-- R307, R308, R310: how a LOOKUP, an ATTACH, an INSERT and a FLUSH at the head of a ring end: the status that their checks give, the
results, and the nodes attached, inserted or dropped. -/
def Obligations.TreeRequests : Prop :=
  ∀ (s : State) (p : Fin 16) (a : Nat),
    let base := s.rec_ (a + 8) 0 64
    let n := s.rec_ (a + 0x10) 0 64
    let i := s.rec_ a 32 18
    let hits := (s.lookupTree p base n).1
    let found (u : State) : Prop := u.peekN (a + 8) 8 = hits.getLastD noPage % 2 ^ 64 ∧ u.peekN (a + 0x10) 8 = hits.length % 2 ^ 64
    let mapped : Prop := ∃ g, g < hits.length ∧ s.groupPages p i g ≠ []
    let pages := s.groupPages p i n
    let ins := s.lookupTree p base (4096 * (n + 1))
    let way := (s.touchNodes p ins.1 false).wayFor p (runHash ins.2.2 (s.tokens (base + 16384 * n))) (ins.1.getLastD noPage)
    let gone : Prop := ∃ h ∈ hits, ∃ k ∈ s.nodePages p h, s.pageState p k = 6
    let nodes := 8 * s.pf p 0x38 0 32
    let tb := s.pf p 0x30 0 48
    (headReq s p 1 a → nextHas (exec (.lookup p) s) (fun u => reqEnded s u p a (if s.tokensOk p base n then 0 else 0xC8)
        ∧ (s.tokensOk p base n = true → found u)))
    ∧ (headReq s p 2 a →
        (s.tokensOk p base n = false → nextHas (exec (.attach p) s) (fun u => reqEnded s u p a 0xC8))
        ∧ (s.tokensOk p base n = true → s.seqActive i p = false → nextHas (exec (.attach p) s) (fun u => reqEnded s u p a 0xC9))
        ∧ (s.tokensOk p base n = true → s.seqActive i p = true → mapped → nextHas (exec (.attach p) s) (fun u => reqEnded s u p a 0xC8))
        ∧ (s.tokensOk p base n = true → s.seqActive i p = true → ¬ mapped → gone →
            nextHas (exec (.attach p) s) (fun u => reqEnded s u p a 0xC6))
        ∧ (s.tokensOk p base n = true → s.seqActive i p = true → ¬ mapped → ¬ gone → nextHas (exec (.attach p) s) (fun u =>
            reqEnded s u p a 0 ∧ found u ∧ (u.pool p).attached.get [] i = (s.pool p).attached.get [] i ++ hits)))
    ∧ (headReq s p 3 a →
        let bad : Prop := s.gmax p < n ∨ s.tokensOk p base (4096 * (n + 1)) = false
        let lost : Prop := ∃ k, k ∈ pages ∧ s.pageState p k = 6
        let notFull : Prop := pages.length ≠ s.lh p ∨ ∃ k, k ∈ pages ∧ s.pageState p k ≠ 2
        let code : Nat → Prop := fun c => nextHas (exec (.insert p) s) (fun u => reqEnded s u p a c)
        (bad → code 0xC8) ∧ (¬ bad → s.seqActive i p = false → code 0xC9)
        ∧ (¬ bad → s.seqActive i p = true →
            (lost → code 0xC6) ∧ (¬ lost → notFull → code 0xC4)
            ∧ (¬ lost → ¬ notFull →
                (ins.1.length < n → code 0xC5) ∧ (n < ins.1.length → code 0xC2)
                ∧ (ins.1.length = n → ins.2.1 = true → code 0xC1) ∧ (ins.1.length = n → ins.2.1 = false → way = none → code 0xC3)
                ∧ (∀ m, ins.1.length = n → ins.2.1 = false → way = some m → nextHas (exec (.insert p) s) (fun u =>
                    reqEnded s u p a 0 ∧ u.peekN (a + 8) 8 = m % 2 ^ 64)))))
    ∧ (headReq s p 8 a →
        let used : Prop := ∃ j, j < nodes ∧ s.nodeValid p j = true ∧ s.nf p j 0x10 0 32 ≠ 0
        (used → nextHas (exec (.flush p) s) (fun u => reqEnded s u p a 0xC7))
        ∧ (¬ used → nextHas (exec (.flush p) s) (fun u => reqEnded s u p a 0 ∧ u.pf p 0x40 0 64 = base
            ∧ (s.inPart p tb (64 * nodes) = true → tb + 64 * nodes ≤ s.pf p 0x20 0 48 → a + 32 ≤ tb ∨ tb + 64 * nodes ≤ a →
                ∀ j, j < nodes → u.nodeValid p j = false))))

/-- R310, R313: how a RELEASE, a PIN, an UNPIN and a PREFETCH at the head of a ring end, and what they leave in the page map and the
page descriptors. -/
def Obligations.PageRequests : Prop :=
  ∀ (s : State) (p : Fin 16) (a : Nat),
    let i := s.rec_ a 32 18
    let lead := s.rec_ (a + 0x10) 0 64
    let lost (ks : List Nat) : Prop := ∃ k, k ∈ ks ∧ s.pageState p k = 6
    let fits (t : Nat) (ks : List Nat) : Prop := (s.admitReturns p t ks).1 = true
    let clear (k : Nat) : Prop := s.inPart p (s.pd p k) 8 = true ∧ (a + 32 ≤ s.pd p k ∨ s.pd p k + 8 ≤ a)
    let pinned (u : State) (k b : Nat) : Prop := u.rec_ (s.pd p k) 3 1 = b
    (headReq s p 4 a →
      (s.seqActive i p = false → nextHas (exec (.release p) s) (fun u => reqEnded s u p a 0xC9))
      ∧ (s.seqActive i p = true → nextHas (exec (.release p) s) (fun u => reqEnded s u p a 0 ∧ (u.pool p).attached.find? i = none
          ∧ ∀ g e, g ≤ s.gmax p → e ∈ s.groupEntries p i g → s.inPart p e 4 = true → e + 4 ≤ s.pf p 0x20 0 48 →
              e + 4 ≤ s.pf p 0x30 0 48 → e + 4 ≤ a ∨ a + 32 ≤ e → u.peekN e 4 = noPage)))
    ∧ (headReq s p 5 a →
        (∀ c, s.rangePages p a i = .inl c → nextHas (exec (.pin p) s) (fun u => reqEnded s u p a c))
        ∧ (∀ ks, s.rangePages p a i = .inr ks →
            (lost ks → nextHas (exec (.pin p) s) (fun u => reqEnded s u p a 0xC6))
            ∧ (¬ lost ks → ¬ fits (s.turnNo + 2) ks → nextHas (exec (.pin p) s) (fun u => reqEnded s u p a 0xC0))
            ∧ (¬ lost ks → fits (s.turnNo + 2) ks → nextHas (exec (.pin p) s) (fun u => reqEnded s u p a 0
                ∧ ∀ k, k ∈ ks → clear k → pinned u k 1))))
    ∧ (headReq s p 6 a →
        (∀ c, s.rangePages p a i = .inl c → nextHas (exec (.unpin p) s) (fun u => reqEnded s u p a c))
        ∧ (∀ ks, s.rangePages p a i = .inr ks →
            (lost ks → nextHas (exec (.unpin p) s) (fun u => reqEnded s u p a 0xC6))
            ∧ (¬ lost ks → nextHas (exec (.unpin p) s) (fun u => reqEnded s u p a 0 ∧ ∀ k, k ∈ ks → clear k → pinned u k 0))))
    ∧ (headReq s p 7 a →
        let ks := s.seqPages p i
        let late : Prop := lead < 2 ∨ 4095 < lead
        (late → nextHas (exec (.prefetch p) s) (fun u => reqEnded s u p a 0xC8))
        ∧ (¬ late → s.seqActive i p = false → nextHas (exec (.prefetch p) s) (fun u => reqEnded s u p a 0xC9))
        ∧ (¬ late → s.seqActive i p = true →
            (lost ks → nextHas (exec (.prefetch p) s) (fun u => reqEnded s u p a 0xC6))
            ∧ (¬ lost ks → ¬ fits (s.turnNo + lead) ks → nextHas (exec (.prefetch p) s) (fun u => reqEnded s u p a 0xC0))
            ∧ (¬ lost ks → fits (s.turnNo + lead) ks → nextHas (exec (.prefetch p) s) (fun u => reqEnded s u p a 0
                ∧ u.rec_ (a + 0x18) 0 48 = (s.turnNo + lead) % 2 ^ 48))))

/-- R320, R321, R328, R337: what a write of word 0 of a group record makes of the group: IDLE, READY or ARMED, or its error bit; ABORT
and DISABLE end what is outstanding; an instance that has stalled ends with SHARD_STALL, as do its commands; held fragments of the
next epoch are discarded after two turns. -/
def Obligations.GroupStates : Prop :=
  ∀ (s : State) (w : Writer) (g : Fin 64) (inst : Fin 1024) (v : Word),
    let a := groupRec g
    let s0 := if w = .joinery then s.setRec a 12 4 (bits v 12 4) else s
    let s' := (s0.setRec a 16 8 (bits v 16 8)).setRec a 6 1 (bits v 6 1)
    let st := s.groupState g
    let plain (u : State) : Prop := u.groupPart g = (if w = .joinery then bits v 12 4 else s.groupPart g)
      ∧ u.gf g 0 16 8 = bits v 16 8 ∧ u.gf g 0 6 1 = bits v 6 1 ∧ ∀ k, k ≠ g.val → u.groupState k = s.groupState k
    let empty (u : State) : Prop := ∀ k y, (k, y) ∈ u.groups.insts → k / 1024 ≠ g.val
    let ended (u : State) (x : InstSt) (code : Nat) : Prop := ∀ l id r, (l, id) ∈ x.contribs → s.runOf l id = some r →
      ∃ y, u.runOf l id = some y ∧ y.done = true ∧ (r.status = 0 → y.status = code)
    (s.writesFor w (s.groupPart g) = true →
      (st = 0 → s'.currentOk g = true → bit v 3 = false → bit v 4 = false → nextHas (exec (.groupEnable w g v) s) (fun u => plain u
          ∧ u.groupState g = 1 ∧ u.gf g 0 5 1 = 0 ∧ u.gf g 0x48 0 32 = 0 ∧ u.groups = s.groups))
      ∧ (st = 0 → s'.currentOk g = false → bit v 4 = false → nextHas (exec (.groupEnable w g v) s) (fun u => plain u
          ∧ u.groupState g = 0 ∧ u.gf g 0 5 1 = 1 ∧ u.groups = s.groups))
      ∧ (st = 1 → bits v 6 1 = 1 ∨ s'.nextOk g = true → bit v 4 = false → nextHas (exec (.groupArm w g v) s) (fun u => plain u
          ∧ u.groupState g = 2 ∧ u.gf g 0 5 1 = 0 ∧ u.groups = s.groups))
      ∧ (st = 1 → bits v 6 1 = 0 → s'.nextOk g = false → bit v 4 = false → nextHas (exec (.groupArm w g v) s) (fun u => plain u
          ∧ u.groupState g = 1 ∧ u.gf g 0 5 1 = 1))
      ∧ (st = 2 → bit v 4 = false → nextHas (exec (.groupDisarm w g v) s) (fun u => plain u ∧ u.groupState g = 1
          ∧ u.groups = { s.groups with drainAt := s.groups.drainAt.drop g }))
      ∧ (st ≠ 0 → nextHas (exec (.groupDisable w g v) s) (fun u => u.groupState g = 0 ∧ empty u
          ∧ ∀ x, s.inst? g inst = some x → ended u x 0xD4))
      ∧ (st ≠ 0 → nextHas (exec (.groupAbort w g v) s) (fun u => empty u ∧ ∀ x, s.inst? g inst = some x → ended u x 0xD4)))
    ∧ (s.writesFor w (s.groupPart g) = false → ∀ c, c ∈ [Instr.groupEnable w g v, .groupDisable w g v, .groupArm w g v,
        .groupDisarm w g v, .groupAbort w g v] → exec c s = .next s)
    ∧ (∀ x, s.inst? g inst = some x → s.instOpen g x = true → s.gf g 0 16 8 ≤ x.stall →
        nextHas (exec (.shardStall g inst) s) (fun u => u.inst? g inst = none ∧ ended u x 0xD3
          ∧ (s.shut = [] → u.gf g 0x3C 0 32 = min (s.gf g 0x3C 0 32 + 1) (2 ^ 32 - 1))))
    ∧ nextHas (exec (.nextEpochHoldExpiry g) s) (fun u => (∀ f, f ∈ u.groups.ahead ↔ f ∈ s.groups.ahead
          ∧ (f.group = g.val → s.turn.ticks < f.turn + 2)) ∧ u.groups = { s.groups with ahead := u.groups.ahead })

/-! ### Isaryn links (14_isaryn_physical_and_link.md) -/

/-- R400, R401, R402, R407, R415, R416, R418: what a frame brings and takes away. A received frame gives its credits, frees what it
acknowledges, and a sound flit in sequence enters its receive buffer, while another asks once for a go-back. A sent frame has 15 slots
filled in the order of R400. Misses, go-backs and failing lanes are counted, and at their limits the link is down.
R409, R410, R411, R412, R425: the states of a port: LNK_CTL takes it OFF, to calibration, back to SEEK or down, and only Joinery
writes it; calibration, lock on 24 lanes and training take it on to UP, where every count starts anew; HOLDOFF takes it from DOWN to
SEEK. -/
def Obligations.LinkLayer : Prop :=
  (∀ (s : State) (p : Fin 6),
    let q := s.port p
    let b := lnkBase p
    let down (u : State) (cause : Nat) : Prop := (u.port p).st = .down ∧ u.reg (b + 0x10) = BitVec.ofNat 32 cause
    q.st = .up →
    (∀ ctl x,
      let v := flitVc x
      let ack : Prop := bits ctl 16 16 = q.nextSeq ∧ bit ctl 32 = false
      let sound : Prop := crc32 (toBytes 252 x.toNat) = flitCrc x
      let got := q.rx.get [] v ++ [x]
      let ends : Prop := flitPos x = 0 ∨ flitPos x = 3
      let heard (u : State) : Prop := (u.port p).retry = [] ∧ (∀ k, k < 4 → (u.port p).cred.get 0 k = bits ctl (40 + 16 * k) 16)
      (ack → nextHas (exec (.frameReceive p ctl [] []) s) (fun u => heard u ∧ (u.port p).rx = q.rx ∧ (u.port p).st = .up ∧ u.mem = s.mem))
      ∧ (ack → sound → flitType x = 1 → flitSeq x = q.expSeq → s.rec_ (portRec p + 8) 1 1 = 0 → (q.rx.get [] v).length < q.size.get 0 v →
          ¬ (ends ∧ s.badFrag (got.drop (lastStart got)) = true) →
          nextHas (exec (.frameReceive p ctl [x] []) s) (fun u => heard u ∧ (u.port p).rx = q.rx.put v got
            ∧ (u.port p).expSeq = (q.expSeq + 1) % 65536 ∧ (u.port p).inEpisode = false ∧ u.mem = s.mem))
      ∧ (ack → flitType x = 1 ∨ flitType x = 2 → ¬ sound ∨ flitSeq x ≠ q.expSeq →
          nextHas (exec (.frameReceive p ctl [x] []) s) (fun u => heard u ∧ (u.port p).rx = q.rx ∧ (u.port p).expSeq = q.expSeq
            ∧ (u.port p).inEpisode = true ∧ (u.port p).nakDue = (if q.inEpisode then q.nakDue else true) ∧ u.mem = s.mem)))
    ∧ nextHas (exec (.frameTransmit p) s) (fun u => ∃ fs, u.out = .frame p (s.frameCtl p) fs :: s.out ∧ fs.length = 15
        ∧ (u.port p).fnum = (q.fnum + 1) % 65536 ∧ (u.port p).nakDue = false ∧ (u.port p).rx = q.rx ∧ u.mem = s.mem
        ∧ (q.lastBeat + 3960 ≤ s.now4 → flitType (fs.headD 0) = 3)
        ∧ (s.now4 < q.lastBeat + 3960 →
            (∀ x r, q.resend = x :: r → fs.headD 0 = s.slotFlit x)
            ∧ (q.resend = [] → q.retry.length < 16384 →
                (∀ x r, q.ctl = x :: r → fs.headD 0 = s.slotFlit { x with seq := q.nextSeq })
                ∧ (q.ctl = [] → s.rec_ (portRec p + 8) 1 1 = 0 → ∀ v f fl y, s.nextVc p = some v → q.outq.get [] v = f :: fl →
                    f.flits.head? = some y → fs.headD 0 = s.slotFlit { flit := y, seq := q.nextSeq })
                ∧ (q.ctl = [] → q.outq = [] → fs = List.replicate 15 (sealFlit 0 0)))))
    ∧ nextHas (exec (.heartbeatMiss p) s) (fun u => (u.port p).misses = q.misses + 1 ∧ bit (u.reg (b + 8)) 2 = true
        ∧ (q.misses + 1 < 4 → (u.port p).st = .up) ∧ (4 ≤ q.misses + 1 → down u 1))
    ∧ (q.retry ≠ [] → nextHas (exec (.retryTimeout p) s) (fun u => bit (u.reg (b + 8)) 3 = true ∧ (u.port p).goBacks = q.goBacks + 1
        ∧ (q.goBacks + 1 < 16 → u.port p = { q with resend := q.retry, goBacks := q.goBacks + 1 }) ∧ (16 ≤ q.goBacks + 1 → down u 2)))
    ∧ (∀ lane : Fin 52,
        let new := q.rxFailed ||| BitVec.ofNat 52 (2 ^ lane.val)
        let spare : Prop := 48 ≤ lane.val ∨ (buildMap new).length = 48
        let half : Prop := isHalf new = true ∧ isHalf q.rxFailed = false
        (q.rxFailed.getLsbD lane = true → exec (.laneLockLoss p lane) s = .next s)
        ∧ (q.rxFailed.getLsbD lane = false → nextHas (exec (.laneLockLoss p lane) s) (fun u => (u.port p).rxFailed = new
            ∧ (spare → bit (u.reg (b + 8)) 4 = true) ∧ (half → bit (u.reg (b + 8)) 5 = true)
            ∧ (spare ∨ half → bit (u.reg Reg.fltRepl) 3 = true)
            ∧ (buildMap new ≠ [] → (u.port p).st = .up ∧ (u.port p).masks = q.masks.put ((q.lastGen + 1) % 16) new
                ∧ ∃ x, (u.port p).ctl = q.ctl ++ [x] ∧ bits x.flit 64 8 = 2 ∧ bits x.flit 128 52 = new.toNat)
            ∧ (buildMap new = [] → down u 3))))
    ∧ nextHas (exec (.laneErrorWindow p) s) (fun u => (u.port p).window = []
        ∧ ∀ l, l < 52 → ((u.port p).rxFailed.getLsbD l = true ↔ q.rxFailed.getLsbD l = true
            ∨ ∃ n, (l, n) ∈ q.window ∧ s.fld (b + 0x30) 0 24 < n)))
  ∧ (∀ (s : State) (p : Fin 6) (v : Word),
    let q := s.port p
    let b := lnkBase p
    let enabled : Prop := s.fld b 0 1 = 1
    let becomes (u : State) (y : Port) : Prop := u.port p = y ∧ (∀ k, k ≠ p.val → u.port k = s.port k) ∧ u.mem = s.mem
    let fell (u : State) (st : LnkState) : Prop := (u.port p).st = st ∧ (u.port p).retry = [] ∧ (u.port p).rx = []
      ∧ u.reg (b + 0x10) = 5 ∧ bit (u.reg (b + 8)) 1 = true
    (∀ r c, r ≠ Requester.joinery → c ∈ [Instr.linkEnable r p v, .linkDisable r p v, .retrain r p, .forceDown r p] → exec c s = .next s)
    ∧ (q.st = .off → nextHas (exec (.linkEnable .joinery p v) s) (fun u => becomes u { q with st := .cal }
        ∧ u.reg b = setBits v 0 1 1 &&& 0xFF03))
    ∧ (q.st ≠ .off → bit v 2 = false → bit v 3 = false → nextHas (exec (.linkEnable .joinery p v) s) (fun u => becomes u q
        ∧ u.reg b = setBits v 0 1 1 &&& 0xFF03))
    ∧ (q.st ≠ .up → nextHas (exec (.linkDisable .joinery p v) s) (fun u => (u.port p).st = .off ∧ u.reg b = setBits v 0 1 0 &&& 0xFF03))
    ∧ (q.st = .up → nextHas (exec (.linkDisable .joinery p v) s) (fun u => fell u .off))
    ∧ (q.st = .down → enabled → nextHas (exec (.retrain .joinery p) s) (fun u => becomes u { q with st := .seek }))
    ∧ (q.st = .up → enabled → nextHas (exec (.forceDown .joinery p) s) (fun u => fell u .down))
    ∧ (∀ ok, q.st = .cal → nextHas (exec (.calibrationComplete p ok) s) (fun u => u = { s with ports := u.ports }
        ∧ becomes u { q with st := if ok = true then .seek else .failed }))
    ∧ (∀ lanes : Fin 53, q.st = .seek →
        let size (k : Nat) : Nat := s.fld (b + 0x20 + 4 * k) 0 15
        let sum := size 0 + size 1 + size 2 + size 3
        (lanes.val < 24 → exec (.partnerLock p lanes) s = .next s)
        ∧ (24 ≤ lanes.val → nextHas (exec (.partnerLock p lanes) s) (fun u => (u.port p).st = .train ∧ u.fld (b + 0x14) 23 1 = 0
            ∧ (sum ≤ 16384 → ∀ k, k < 4 → (u.port p).size.get 0 k = size k)
            ∧ (16384 < sum → (u.port p).size = [(0, 8192), (1, 2048), (2, 4096), (3, 2048)] ∧ bit (u.reg (b + 8)) 8 = true))))
    ∧ (∀ ok full screen peerFailed info sizes peerGen delay, q.st = .train →
        let rx := q.rxFailed ||| screen
        let tx := q.txFailed ||| peerFailed
        let good : Prop := ok = true ∧ buildMap rx ≠ [] ∧ buildMap tx ≠ []
        nextHas (exec (.trainingComplete p ok full screen peerFailed info sizes peerGen delay) s) (fun u =>
          (u.port p).rxFailed = rx ∧ (u.port p).txFailed = tx ∧ bits (u.reg (b + 0x14)) 0 24 = info.toNat + 2 ^ 23
          ∧ (good → (u.port p).st = .up ∧ (u.port p).nextSeq = 0 ∧ (u.port p).expSeq = 0 ∧ (u.port p).retry = []
              ∧ (u.port p).rx = [] ∧ (u.port p).sent = [] ∧ (u.port p).freed = [] ∧ (u.port p).epoch = (q.epoch + 1) % 256
              ∧ (∀ k, k < 4 → (u.port p).peerSize.get 0 k = bits sizes (15 * k) 15) ∧ u.reg (b + 0x18) = delay ∧ bit (u.reg (b + 8)) 0 = true)
          ∧ (¬ good → (u.port p).st = .down)))
    ∧ (q.st = .down → bit (s.reg b) 1 = true → nextHas (exec (.holdoffExpiry p) s) (fun u => u = { s with ports := u.ports }
        ∧ becomes u { q with st := .seek })))


/-! ### Isaryn messages (15_isaryn_messages_and_routing.md) -/

/-- R30, R285, R291, R326, R340, R446, R447, R448, R453: what the fragment at the head of a receive buffer does. A reserved message that
reaches a module which is not aligned is refused; that UNREACH answers it is the model's choice (log entry 65). A WRITE within a window is
written and, once whole, answered with DONE; a READ is answered with a WRITE; a fragment of a group of another epoch is stale or held;
one of a ring is placed in its buffer, and fails the pass when its header is wrong; a command of another kind leaves it. -/
def Obligations.Fragments : Prop :=
  ∀ (s : State) (p : Fin 6) (vc : Fin 4) (f : Frag),
    let n := f.data.length
    let counts (u : State) (a k : Nat) : Prop := u.rec_ a 0 32 = min (s.rec_ a 0 32 + k) (2 ^ 32 - 1)
    let first := if f.frag = 0 then 1 else 0
    let held (u : State) : Prop := ∃ c, u.ctx? f.src f.mtag = some c ∧ f.frag ∈ c.got ∧ c.turn = s.turn.ticks
    let g := f.arg % 64
    let i := f.arg / 2 ^ 6 % 1024
    let h (off w : Nat) : Nat := ofBytes ((f.data.drop off).take w)
    let r := h 4 4 % 16
    let hop := h 8 4 / 2 ^ 16 % 4096
    let place := s.bufAddr r (hop % 3) + fragMax * f.frag
    (∀ c, c ∈ [(0, Instr.write p vc), (1, .gather p vc), (2, .tree p vc), (3, .ring p vc), (4, .done p vc), (5, .unreach p vc),
        (6, .confirm p vc), (7, .retract p vc), (8, .ready p vc), (9, .commit p vc), (10, .credit p vc), (11, .read p vc)] →
      s.headFlits p vc = none ∨ (∃ k, k ≠ c.1 ∧ headFrag s p vc k f) → exec c.2 s = .next s)
    ∧ (headFrag s p vc 0 f → s.msg.tombs.any (sameMsg f.src f.mtag) = true → nextHas (exec (.write p vc) s) (fun u =>
        consumed s u p vc ∧ counts u (msgCtl + 0x24) 1 ∧ u.msg = s.msg))
    ∧ (∀ k c, (k, c) ∈ [(0, Instr.write p vc), (1, .gather p vc), (2, .tree p vc), (3, .ring p vc)] → headFrag s p vc k f →
        s.msg.tombs.any (sameMsg f.src f.mtag) = false → s.msg.dead.any (sameMsg f.src f.mtag) = false → s.ctx? f.src f.mtag = none →
        f.res = true → s.isAligned = false → nextHas (exec c s) (fun u => consumed s u p vc ∧ u.msg.ctxs = s.msg.ctxs
          ∧ u.msg.denied.any (sameMsg f.src f.mtag) = true ∧ u.rings = s.rings ∧ u.groups = s.groups))
    ∧ (headFrag s p vc 0 f → mayTake s f → f.arg % 4 = 0 →
        (s.window f.src 2 f.addr n = none → nextHas (exec (.write p vc) s) (fun u => consumed s u p vc ∧ counts u (msgCtl + 0x28) 1
            ∧ u.msg.ctxs = s.msg.ctxs ∧ u.msg.denied.any (sameMsg f.src f.mtag) = true))
        ∧ (∀ part, s.window f.src 2 f.addr n = some part → s.inPart part f.addr n = true → stacksUp s →
            nextHas (exec (.write p vc) s) (fun u => consumed s u p vc ∧ u.peek f.addr n = f.data
              ∧ (whole1 s f → u.ctx? f.src f.mtag = none ∧ told s u f.src 4 f.mtag)
              ∧ (s.ctx? f.src f.mtag = none → f.nfrag ≠ 0 → held u))))
    ∧ (headFrag s p vc 11 f →
        let m := f.readLen.getD 0
        (s.window f.src 3 f.addr m = none → nextHas (exec (.read p vc) s) (fun u => consumed s u p vc ∧ counts u (msgCtl + 0x28) 1))
        ∧ (∀ part, s.window f.src 3 f.addr m = some part → nextHas (exec (.read p vc) s) (fun u => consumed s u p vc ∧ u.mem = s.mem
            ∧ (s.routePort s.myId f.src < 6 → s.portReady (s.routePort s.myId f.src) = true →
                u.msg.next = s.msg.next + 1 ∧ ∃ y, u.msg.out.find? s.msg.next = some y ∧ y.dest = f.src))))
    ∧ (∀ k c, (k, c) ∈ [(1, Instr.gather p vc), (2, .tree p vc)] → headFrag s p vc k f → mayTake s f →
        (s.epochIs g f.epoch = .stale → nextHas (exec c s) (fun u => consumed s u p vc ∧ counts u (groupRec g + 0x34) first
            ∧ u.groups = s.groups ∧ u.msg = s.msg))
        ∧ (s.epochIs g f.epoch = .next → nextHas (exec c s) (fun u => consumed s u p vc ∧ counts u (groupRec g + 0x38) first
            ∧ u.msg = s.msg ∧ ∃ fs, s.headFlits p vc = some fs ∧ u.groups = { s.groups with
                ahead := s.groups.ahead ++ [{ group := g, turn := s.turn.ticks, port := p, flits := fs }] })))
    ∧ (headFrag s p vc 1 f → mayTake s f → s.epochIs g f.epoch = .now → s.shut = [] → f.nfrag ≠ 0 → s.ctx? f.src f.mtag = none →
        let bs := (gathConvert (f.arg / 2 ^ 28 % 16) (f.arg / 2 ^ 40 % 16) (f.arg / 2 ^ 44 % 16) (signed 8 (f.arg / 2 ^ 32))
          (s.draw 1 == 1) f.data).1
        s.inPart (s.groupPart g) f.addr bs.length = true → stacksUp s → nextHas (exec (.gather p vc) s) (fun u => consumed s u p vc
          ∧ u.peek f.addr bs.length = bs ∧ held u ∧ ∃ y, u.inst? g i = some y ∧ y.gath = true ∧ y.progress = true))
    ∧ (headFrag s p vc 2 f → mayTake s f → s.epochIs g f.epoch = .now → whole1 s f → f.arg / 2 ^ 36 % 2 = 0 → f.frag = 0 →
        nextHas (exec (.tree p vc) s) (fun u => consumed s u p vc ∧ told s u f.src 4 f.mtag ∧ ∃ y, u.inst? g i = some y
          ∧ y.right.find? (64 * (f.arg / 2 ^ 16 % 4096) + f.arg / 2 ^ 28 % 256) = some { data := f.data, port := p, link := none }))
    ∧ (headFrag s p vc 3 f → mayTake s f → f.frag = 0 →
        let ok : Prop := s.ringLive r = true ∧ f.epoch = s.ringEpoch r ∧ f.src = s.rf r 0x0C 0 20
        let fits : Prop := h 4 4 / 16 % 256 = s.rf r 0x34 0 8 ∧ h 0x0C 4 = s.kBytes r ∧ hop ≤ s.ringHops r
          ∧ (hop = (s.ring r).arrived + 1 ∨ ((s.ring r).await = true ∧ hop = (s.ring r).provHop))
        (¬ ok → nextHas (exec (.ring p vc) s) (fun u => consumed s u p vc ∧ counts u (ringRec r + 0x58) 1 ∧ u.rings = s.rings))
        ∧ (ok → ¬ fits → nextHas (exec (.ring p vc) s) (fun u => consumed s u p vc ∧ u.ringState r = 4 ∧ u.rf r 0 24 4 = 5))
        ∧ (ok → fits → s.inPart (s.ringPart r) place n = true → stacksUp s →
            (f.nfrag ≠ 0 → s.ctx? f.src f.mtag = none → nextHas (exec (.ring p vc) s) (fun u => consumed s u p vc
                ∧ u.peek place n = f.data ∧ u.rings = s.rings ∧ held u))
            ∧ (whole1 s f → (s.ring r).await = false → nextHas (exec (.ring p vc) s) (fun u => consumed s u p vc
                ∧ told s u f.src 4 f.mtag ∧ u.ring r = { s.ring r with arrived := hop, progress := true }))))
    ∧ (headFrag s p vc 10 f →
        let q := f.arg % 16
        let b := f.arg / 16 % 4
        let x := s.ring q
        let ok : Prop := s.ringLive q = true ∧ f.arg / 2 ^ 16 % 2 ^ 16 = s.ringEpoch q ∧ f.src = s.rf q 8 0 20
        (¬ ok → nextHas (exec (.credit p vc) s) (fun u => consumed s u p vc ∧ counts u (ringRec q + 0x58) 1 ∧ u.rings = s.rings))
        ∧ (ok → s.ringState q = 1 ∨ x.started ≤ x.sent → nextHas (exec (.credit p vc) s) (fun u => consumed s u p vc
            ∧ u.ring q = { x with credit := b :: x.credit.filter (· != b) })))

/-- R444, R445, R449, R451: how messages end. DONE, UNREACH and a timeout end a message and its owner's wait with their status; a
confirmation frees a complete entry, a retraction or an expiry discards the message and what was made from it; a context that stalls
leaves a tombstone for 128 turns. Turns are counted in ticks. An UNREACH from the destination means 0x93, or for a reserved message 0x44
(R30); of a reserved WRITE it is open which. -/
def Obligations.MessageEnds : Prop :=
  ∀ (s : State) (p : Fin 6) (vc : Fin 4) (f : Frag) (src : Fin 1048576) (mtag : Fin 65536),
    let tag := f.arg % 2 ^ 16
    let dest := f.arg / 2 ^ 16 % 2 ^ 20
    let gone (u : State) (k : Nat) (m : Msg) (status : Nat) : Prop := u.msg.out.find? k = none
      ∧ ∀ l id j, m.owner = .cmd l id j → m.done = false → requestEnded s u l id status
    let retracted (u : State) (a b : Nat) : Prop := u.ctx? a b = none ∧ (a, b, s.turn.ticks) ∈ u.msg.dead
      ∧ ∀ k, s.provKey a b = some k → u.sill.prov.find? k = none ∧ bit (u.reg Reg.silEvent) 3 = true
    let late (m : Msg) : Prop := m.mtag = mtag.val ∧ m.done = false ∧ ∃ t, m.sentTurn = some t ∧ t + 66 ≤ s.turn.ticks
    (headFrag s p vc 4 f →
      (s.msgKey f.src tag = none → nextHas (exec (.done p vc) s) (fun u => consumed s u p vc ∧ u.msg = s.msg))
      ∧ (∀ k m, s.msgKey f.src tag = some k → s.msg.out.find? k = some m → nextHas (exec (.done p vc) s) (fun u => consumed s u p vc
          ∧ (m.prov = false ∨ (m.cmds = [] ∧ m.links = []) → gone u k m (if m.poison then 0x96 else 0))
          ∧ (m.prov = true → m.cmds ≠ [] ∨ m.links ≠ [] → u.msg.out.find? k = some { m with done := true }))))
    ∧ (headFrag s p vc 5 f →
        (s.msgKey dest tag = none → nextHas (exec (.unreach p vc) s) (fun u => consumed s u p vc ∧ u.msg = s.msg))
        ∧ (∀ k m, s.msgKey dest tag = some k → s.msg.out.find? k = some m → nextHas (exec (.unreach p vc) s) (fun u =>
            consumed s u p vc ∧ gone u k m (if f.src = dest then s.refusedBy m else 0x94))))
    ∧ ((∃ k m, (k, m) ∈ s.msg.out ∧ late m) → nextHas (exec (.msgTimeout mtag) s) (fun u => ∃ k m, (k, m) ∈ s.msg.out ∧ late m
        ∧ u.msg.out.find? k = none ∧ (s.msg.out.find? k = some m → gone u k m 0x95)))
    ∧ ((∀ k m, (k, m) ∈ s.msg.out → ¬ late m) → exec (.msgTimeout mtag) s = .next s)
    ∧ (headFrag s p vc 6 f →
        (∀ k, s.provKey f.src tag = some k → nextHas (exec (.confirm p vc) s) (fun u => consumed s u p vc
          ∧ u.sill.prov.find? k = (if (s.sill.prov.get {} k).complete then none
              else some { s.sill.prov.get {} k with confirmed := true })))
        ∧ (s.provKey f.src tag = none → s.msg.dead.any (sameMsg f.src tag) = true → nextHas (exec (.confirm p vc) s) (fun u =>
            consumed s u p vc ∧ u.sill = s.sill))
        ∧ (s.provKey f.src tag = none → s.msg.dead.any (sameMsg f.src tag) = false →
            (s.provRoom = false → exec (.confirm p vc) s = .next s)
            ∧ (s.provRoom = true → nextHas (exec (.confirm p vc) s) (fun u => consumed s u p vc ∧ u.sill.nextProv = s.sill.nextProv + 1
                ∧ u.sill.prov.find? s.sill.nextProv = some { src := f.src, mtag := tag, confirmed := true, turn := s.turn.ticks }))))
    ∧ (headFrag s p vc 7 f → nextHas (exec (.retract p vc) s) (fun u => consumed s u p vc ∧ retracted u f.src tag))
    ∧ (∀ k e, s.provKey src mtag = some k → s.sill.prov.find? k = some e →
        (e.confirmed = false → e.turn + 4 ≤ s.turn.ticks → nextHas (exec (.provExpired src mtag) s) (fun u => retracted u src mtag))
        ∧ (e.confirmed = true ∨ s.turn.ticks < e.turn + 4 → exec (.provExpired src mtag) s = .next s))
    ∧ (∀ c, s.ctx? src mtag = some c →
        (c.turn + 64 ≤ s.turn.ticks → nextHas (exec (.reassemblyStall src mtag) s) (fun u => u.ctx? src mtag = none
          ∧ (src.val, mtag.val, s.turn.ticks) ∈ u.msg.tombs ∧ u.rec_ (msgCtl + 0x20) 0 32 = min (s.rec_ (msgCtl + 0x20) 0 32 + 1) (2 ^ 32 - 1)
          ∧ (s.msg.tombs.length ≤ 16384 → u.msg.tombs.length ≤ 16384)))
        ∧ (s.turn.ticks < c.turn + 64 → exec (.reassemblyStall src mtag) s = .next s))
    ∧ nextHas (exec (.tombstoneExpiry src mtag) s) (fun u => u = { s with msg := { s.msg with tombs := u.msg.tombs } }
        ∧ ∀ t, t ∈ u.msg.tombs ↔ t ∈ s.msg.tombs ∧ (t.1 = src.val → t.2.1 = mtag.val → s.turn.ticks < t.2.2 + 128))

/-- R431, R433, R445, R446: Joinery turns the message layer on and off, which empties it; a write window is enabled when its range lies
in its partition; a transit fragment goes on once its next VC is free and has credit, and is discarded where the link is down. -/
def Obligations.MessageLayer : Prop :=
  ∀ (s : State) (w : Writer) (v : Byte) (n : Fin 64) (word : Word) (p : Fin 6) (vc : Fin 4),
    let a := winRec n
    let part := if w = .joinery then bits word 12 4 else s.rec_ a 12 4
    let rights (u : State) : Prop := u.rec_ a 12 4 = part ∧ u.rec_ a 1 3 = bits word 1 3
      ∧ ∀ k, k < 64 → k ≠ n.val → u.rec_ (winRec k) 0 64 = s.rec_ (winRec k) 0 64
    let inside : Prop := s.inPart part (s.rec_ (a + 8) 0 48) (s.rec_ (a + 0x10) 0 48) = true
    (w ≠ .joinery → exec (.msgEnable w v) s = .next s)
    ∧ (bit v 0 = true → s.rec_ msgCtl 0 1 = 0 → nextHas (exec (.msgEnable .joinery v) s) (fun u => u.rec_ msgCtl 0 4 = bits v 0 4
        ∧ u.msg = s.msg ∧ u.sill = s.sill))
    ∧ (bit v 0 = true → s.rec_ msgCtl 0 1 = 1 → exec (.msgEnable .joinery v) s = .next s)
    ∧ (bit v 0 = false → nextHas (exec (.msgEnable .joinery v) s) (fun u => u.msg.ctxs = [] ∧ u.msg.tombs = [] ∧ u.msg.dead = []
        ∧ u.msg.denied = [] ∧ u.sill.prov = [] ∧ (s.sill.prov = [] → u.rec_ msgCtl 0 1 = 0)))
    ∧ (s.writesFor w (s.rec_ a 12 4) = false → exec (.windowEnable w n word) s = .next s)
    ∧ (s.writesFor w (s.rec_ a 12 4) = true →
        (bit word 0 = false → nextHas (exec (.windowEnable w n word) s) (fun u => rights u ∧ u.rec_ a 0 1 = 0))
        ∧ (bit word 0 = true → s.rec_ a 0 1 = 1 → nextHas (exec (.windowEnable w n word) s) (fun u => rights u ∧ u.rec_ a 0 1 = 1))
        ∧ (bit word 0 = true → s.rec_ a 0 1 = 0 → inside → nextHas (exec (.windowEnable w n word) s) (fun u =>
            rights u ∧ u.rec_ a 0 1 = 1 ∧ u.rec_ a 4 1 = 0))
        ∧ (bit word 0 = true → s.rec_ a 0 1 = 0 → ¬ inside → nextHas (exec (.windowEnable w n word) s) (fun u =>
            rights u ∧ u.rec_ a 0 1 = 0 ∧ u.rec_ a 4 1 = 1)))
    ∧ (∀ fs, s.headFlits p vc = some fs →
        let f := fragOf fs
        let out := s.routePort s.myId f.dest
        let q := s.port out
        let room : Prop := q.outq.get [] vc = [] ∧ fs.length + (if out / 2 = p.val / 2 then 0 else 64) ≤ q.credit vc
        (f.dest = s.myId → exec (.transitForward p vc) s = .next s)
        ∧ (f.dest ≠ s.myId → out < 6 →
            (s.portReady out = false → nextHas (exec (.transitForward p vc) s) (fun u => consumed s u p vc
                ∧ (f.src, f.mtag) ∈ (u.port out).told ∧ (u.port out).outq = q.outq))
            ∧ (s.portReady out = true → room → nextHas (exec (.transitForward p vc) s) (fun u => consumed s u p vc
                ∧ u.mem = s.mem ∧ u.msg = s.msg ∧ ∃ y, (u.port out).outq.get [] vc = [y] ∧ y.flits = fs
                ∧ y.transit = some (f.src, f.mtag, f.dest)))
            ∧ (s.portReady out = true → ¬ room → exec (.transitForward p vc) s = .next s)))

/-! ### Host ports and pre-emption (16, 17) -/

/-- R458, R466, R651: a reset of one port, a link loss, an FLR, a move to D3hot or PERST_N: every MSI-X register of the port reads its
reset value, its Function Mask is clear, and, on an idle device, every queue that it owns has left ACTIVE and DRAINING, with cause
PORT_RESET while ENABLE stays set; nothing that waited in it is left; memory changes only where a sequence entry reported to such a queue.
The Function Mask (R466 names the tables alone), a queue that is OFF and one that is in ERROR already go as notes/assumptions/66.md has
it. -/
def Obligations.PortResets : Prop :=
  ∀ (s : State) (p : Fin 2) (q : Fin 16384),
    let idle : Prop := s.turn.progs = [] ∧ s.host.reads = [] ∧ s.log = []
    let lo := msxBase p 0
    let clean (u : State) : Prop := (∀ k, k < 0x10000 → u.reg (lo + k) = regReset (lo + k)) ∧ (u.hport p).funcMask = false
      ∧ (idle → ((∀ i, i ∈ s.seqIn 1 → s.qOwner (s.seqRptq i) ≠ p + 1) → u.mem = s.mem) ∧ u.hport (1 - p.val) = s.hport (1 - p.val)
        ∧ (s.qOwner q ≠ p + 1 ∨ (s.queue q).st = .off → u.queue q = s.queue q) ∧ (s.qOwner q = p + 1 → (s.queue q).st ≠ .off →
          (u.queue q).fetched = [] ∧ (u.queue q).st ≠ .active ∧ (u.queue q).st ≠ .draining
            ∧ (s.fld (hqBase q) 0 1 = 1 → (u.queue q).st = .error ∧ (u.queue q).cause = 4)))
    nextHas (exec (.hostPortReset p) s) (fun u => clean u ∧ (u.hport p).link = false)
    ∧ nextHas (exec (.functionLevelReset p) s) (fun u => clean u ∧ (u.hport p).d3hot = false
        ∧ u.out.head? = some (.readiness p true))
    ∧ nextHas (exec (.d3hotEntry p) s) (fun u => clean u ∧ (u.hport p).d3hot = true)
    ∧ nextHas (exec (.perstN p) s) (fun u => (s.start.ready = true → clean u) ∧ (u.hport p).link = false
        ∧ (u.hport p).retraining = true ∧ (u.hport p).d3hot = false
        ∧ (s.start.ready = false → u = { s with host := { s.host with ports := u.host.ports } }))

/-- R458, R462, R463, R465: a configuration request is completed, with Request Retry Status during a start; a BAR2 read returns the bytes
of HBM, or all ones as a poisoned completion; a write changes its enabled bytes alone; an AtomicOp returns the old value and stores
the new one; what the port may not reach is Unsupported Request or an AER report. -/
def Obligations.HostAccess : Prop :=
  ∀ (s : State) (p : Fin 2) (off : BitVec 40) (reg : CfgReg) (wr : Option Word) (len : Fin 4096) (data : List (Option Byte))
      (op : PcieAtomic) (w64 : Bool) (a b : Dword),
    let hears : Prop := s.hears (Requester.ofPort p) = true
    let completes (u : State) (c : CplStatus) (bs : List Byte) : Prop := u.out.head? = some (.completion p c bs)
    let bad (x n : Nat) : Prop := ∃ k, x / 64 ≤ k ∧ k ≤ (x + n - 1) / 64 ∧ (s.poisoned k = true ∨ s.pcState (hbmMap (64 * k)).pc = 3)
    let n := len.val + 1
    let m := data.length
    let z := if w64 then 8 else 4
    let mask := 2 ^ (8 * z)
    (s.portsLive = true →
      (s.start.ready = false → s.start.kind ≠ 2 → nextHas (exec (.configurationRequest p reg wr) s) (fun u => completes u .retry []
          ∧ u.mem = s.mem))
      ∧ (s.start.ready = true ∨ s.start.kind = 2 →
          (wr = none → nextHas (exec (.configurationRequest p reg wr) s) (fun u => completes u .success (toBytes 4 (s.cfgRead p reg))
              ∧ (u.hport p).link = true ∧ u.mem = s.mem ∧ u.regs = s.regs))
          ∧ (∀ v, wr = some v → nextHas (exec (.configurationRequest p reg wr) s) (fun u => completes u .success []
              ∧ (reg = .bar2Size → v.toNat ≤ 10 → (u.hport p).bar2Log = v.toNat ∧ (u.hport p).wbase % 2 ^ (30 + v.toNat) = 0)
              ∧ (reg = .wbaseHi → (u.hport p).wbase / 2 ^ (30 + (s.hport p).bar2Log)
                  = ((s.hport p).wbase % 2 ^ 32 + bits v 0 16 * 2 ^ 32) / 2 ^ (30 + (s.hport p).bar2Log))
              ∧ (reg = .powerState → bits v 0 2 = 3 → (u.hport p).d3hot = true)
              ∧ (reg = .powerState → bits v 0 2 = 0 → (u.hport p).d3hot = false))))
      ∧ (¬ hears → nextHas (exec (.bar2Read p off len) s) (fun u => completes u s.deafStatus [] ∧ u.mem = s.mem)
          ∧ nextHas (exec (.bar2Atomic p off op w64 a b) s) (fun u => completes u s.deafStatus [] ∧ u.mem = s.mem))
      ∧ (hears →
          (∀ q x, s.bar2Target p off.toNat n = .hbm q x → nextHas (exec (.bar2Read p off len) s) (fun u => u.mem = s.mem
              ∧ (bad x n → completes u .poisoned (List.replicate n 0xFF)) ∧ (¬ bad x n → completes u .success (s.peek x n))))
          ∧ (∀ x, s.bar2Target p off.toNat n = .record x → nextHas (exec (.bar2Read p off len) s) (fun u =>
              completes u .success (s.recRead (.host p) x n) ∧ u.mem = s.mem))
          ∧ (s.bar2Target p off.toNat n = .none → nextHas (exec (.bar2Read p off len) s) (fun u =>
              completes u .unsupported [] ∧ u.mem = s.mem))
          ∧ (∀ q x, s.bar2Target p off.toNat z = .hbm q x → x % z = 0 → ¬ bad x z →
              let old := s.peekN x z
              let new := match op with
                | .fetchAdd => (old + a.toNat % mask) % mask
                | .swap => a.toNat % mask
                | .cas => if old = a.toNat % mask then b.toNat % mask else old
              nextHas (exec (.bar2Atomic p off op w64 a b) s) (fun u => completes u .success (s.peek x z) ∧ u.peekN x z = new
                ∧ (op = .cas → old ≠ a.toNat % mask → u.mem = s.mem)))
          ∧ (∀ q x, s.bar2Target p off.toNat z = .hbm q x → x % z = 0 → bad x z →
              nextHas (exec (.bar2Atomic p off op w64 a b) s) (fun u => completes u .poisoned (List.replicate z 0xFF) ∧ u.mem = s.mem))
          ∧ ((∀ q x, s.bar2Target p off.toNat z = .hbm q x → x % z ≠ 0) → nextHas (exec (.bar2Atomic p off op w64 a b) s) (fun u =>
              completes u .unsupported [] ∧ u.mem = s.mem))))
    ∧ (¬ hears → exec (.bar2Write p off data) s = .next s)
    ∧ (hears → m ≤ 4096 →
        (∀ q x, s.bar2Target p off.toNat m = .hbm q x → stacksUp s → nextHas (exec (.bar2Write p off data) s) (fun u =>
            ∀ i, i < m → memGet u.mem (x + i) = (data.getD i none).getD (memGet s.mem (x + i))))
        ∧ (∀ x, s.bar2Target p off.toNat m = .record x → exec (.bar2Write p off data) s = .next (s.recWrite (.host p) x data))
        ∧ (s.bar2Target p off.toNat m = .none → nextHas (exec (.bar2Write p off data) s) (fun u =>
            u = { s with out := .aer p :: s.out })))

/-- R385, R475, R643, R645: how an outstanding host read ends for the ring, the transfer or the page that asked for it; unmasking sends
what was pending; a route is written by Joinery, or by a host to its own port. -/
def Obligations.HostSignals : Prop :=
  ∀ (s : State) (p : Fin 2) (vec : Fin 2048) (k : Fin 144) (v : Word) (r : Requester) (tag : Nat) (x : HostRead) (data : List Byte),
    let fails (c : Instr) : Prop := c = .completionTimeout tag
      ∨ ∃ st, st ≠ CplStatus.success ∧ st ≠ .retry ∧ c = .hostDmaCompletion tag st data
    let hears : Prop := s.hears (Requester.ofPort p) = true
    let mask (i : Nat) : Nat := s.fld (msxBase p i + 12) 0 1
    let due (i : Nat) : Nat := s.fld (pbaReg p i) (i % 32) 1
    let old := s.reg (Reg.msxRoute k)
    let may : Prop := r = .joinery ∨ ∃ h, r.port? = some h ∧ s.hears r = true ∧ bits v 11 1 = h ∧ (bit old 12 = false ∨ bits old 11 1 = h)
    (s.host.reads.find? tag = none → ∀ c, c = .completionTimeout tag ∨ (∃ st, c = Instr.hostDmaCompletion tag st data) → exec c s = .next s)
    ∧ (s.host.reads.find? tag = some x →
        exec (.hostDmaCompletion tag .retry data) s = .next s
        ∧ (data.length ≠ x.len → exec (.hostDmaCompletion tag .success data) s = .next s)
        ∧ (∀ q first n, x.use = .ring q first n → (s.queue q).st = .active → s.fld (hqBase q) 0 1 = 1 → ∀ c, fails c →
            nextHas (exec c s) (fun u => u.host.reads.find? tag = none ∧ (u.queue q).st = .error ∧ (u.queue q).cause = 1
              ∧ (u.queue q).unrec = (s.queue q).unrec - n))
        ∧ (∀ l id j pos, x.use = .xfer l id j pos → ∀ c, fails c → nextHas (exec c s) (fun u => u.host.reads.find? tag = none
            ∧ ∀ y, s.runOf l id = some y → ∃ z, u.runOf l id = some z ∧ z.status ≠ 0))
        ∧ (∀ pool page, x.use = .pageReturn pool page → s.pageState pool page = 5 → data.length = x.len →
            nextHas (exec (.hostDmaCompletion tag .success data) s) (fun u => u.host.reads.find? tag = none
              ∧ page ∈ (u.pool pool).landed)))
    ∧ (hears → nextHas (exec (.msixVectorUnmask p (some vec)) s) (fun u => u.fld (msxBase p vec + 12) 0 1 = 0 ∧ u.mem = s.mem
          ∧ (due vec = 1 → (s.hport p).funcMask = false → u.fld (pbaReg p vec) (vec.val % 32) 1 = 0 ∧ ∃ a d, u.out = .msix p a d :: s.out)
          ∧ (due vec = 0 → u.out = s.out))
        ∧ nextHas (exec (.msixVectorUnmask p none) s) (fun u => (u.hport p).funcMask = false ∧ u.mem = s.mem
          ∧ u.fld (pbaReg p vec) (vec.val % 32) 1 = (if mask vec = 0 then 0 else due vec)))
    ∧ (¬ hears → exec (.msixVectorUnmask p (some vec)) s = .next s ∧ exec (.msixVectorUnmask p none) s = .next s)
    ∧ (may → exec (.msixRouteWrite r k v) s = .next (s.setReg (Reg.msxRoute k) (v &&& 0x1FFF)))
    ∧ (¬ may → exec (.msixRouteWrite r k v) s = .next s)

/-- R499, R503, R504, R505: a save keeps the resident's context, its commands and what is live, and leaves its thread OFF and every slot
free; the program that waits then starts. A restore of a sound area brings all of it back as it was; poison in the area faults the
thread and ends the resumed commands with SEQ_RESTORE_POISONED. -/
def Obligations.Preemption : Prop :=
  ∀ (s : State) (c : Fin 128),
    let l := c.val
    let x := s.cpre l
    let t := x.thread
    let th := s.thread l t
    let poisoned (v : Saved) : Prop := ∃ b, b ∈ blocksOf (s.saveArea l) v.bytes ∧ (s.poisoned b = true ∨ s.pcState (hbmMap (64 * b)).pc = 3)
    (x.st ≠ .stopping ∨ s.enginesStopped l = false ∨ th.inAccess = true → exec (.preemptSave c) s = .next s)
    ∧ (x.st = .stopping → s.enginesStopped l = true → th.inAccess = false → nextHas (exec (.preemptSave c) s) (fun u =>
        ∃ v, (u.cpre l).saved = some v ∧ (u.cpre l).st = .saving ∧ v.ctxs.find? t = some { th with stores := [] }
          ∧ u.thread l t = { part := th.part, start := th.start, issuedRc := th.issuedRc, stores := th.stores } ∧ u.mem = s.mem
          ∧ (∀ k, k ≠ t → u.thread l k = s.thread l k) ∧ (∀ k, k ≠ l → u.core k = s.core k)
          ∧ (x.saved = none → v.runs = s.residentRuns l ∧ v.ctxs = [(t, { th with stores := [] })] ∧ (u.cpre l).bytes = v.bytes
              ∧ (∀ k, k < 8 → ((u.phy (s.under l)).slot k).st = .free) ∧ (∀ b, b ∈ blocksOf (s.saveArea l) v.bytes → u.poisoned b = false))
          ∧ (∀ w, x.saved = some w → v.runs = w.runs ∧ u.phys = s.phys)))
    ∧ (x.st = .saving → ∃ u : State, u.cpre l = { x with st := .saved } ∧ u.log = s.log
        ∧ u.fld Reg.seqPreempts 0 32 = min (s.fld Reg.seqPreempts 0 32 + 1) (2 ^ 32 - 1)
        ∧ exec (.saveComplete c) s = .next ((s.holder l).elim u u.startCores))
    ∧ (∀ v, x.saved = some v → x.st = .saved → s.holder l = none → s.present l = true →
        (¬ poisoned v → nextHas (exec (.restore c) s) (fun u => u.cpre l = { x with st := .restoring } ∧ u = { s with pre := u.pre }))
        ∧ (poisoned v → nextHas (exec (.restore c) s) (fun u => (u.cpre l).st = .none ∧ (u.cpre l).saved = none ∧ bit (u.reg Reg.seqEvent) 2 = true
            ∧ (∀ k y, (k, y) ∈ v.ctxs → (u.thread l k).st = .faulted ∧ (u.thread l k).excCause = 5)
            ∧ ∀ y, y ∈ v.runs → y.status = 0 → ∃ z, u.runOf l y.cmd.id = some z ∧ z.done = true ∧ z.status ≠ 0)))
    ∧ (∀ v, x.saved = some v → x.st = .restoring → nextHas (exec (.restoreComplete c) s) (fun u => (u.cpre l).st = .none
        ∧ (u.cpre l).saved = none ∧ (u.core l).running = v.runs ++ (s.core l).running ∧ (u.core l).flags = v.flags ∧ u.mem = s.mem
        ∧ ∀ k y, v.ctxs.rising = true → v.ctxs.find? k = some y → y.wait = .none →
            u.thread l k = { y with stores := (s.thread l k).stores }))

/-! ### The Sill (18_silent_errors_and_the_sill.md) -/

/-- R143, R514, R519, R521, R522, R525, R528: a retired command crosses once nothing that it read waits; a failed command is carried out
again on the panel's spare; a tile that storage poisoned is filled again and its handle pushed once its slot is free; two runs of a
sampled command that differ make a replay, whose result tells which of them was wrong; a WAIT ends once all before it has crossed, with
the first outcome that is none. -/
def Obligations.SillCommands : Prop :=
  ∀ (s : State) (panel : Fin 8) (l id : Nat) (c : Fin 128) (tag : Fin 4096),
    let x := s.spare panel
    let below (i k : Nat) : Prop := s.fld (Reg.silCoreChk i) 0 8 + k < s.failLimit
    let counts (u : State) (r : Nat) : Prop := u.fld r 0 32 = min (s.fld r 0 32 + 1) (2 ^ 32 - 1)
    (∀ e, s.sill.retired.find? (fun y => y.id == id) = some e →
      let free : Prop := e.dup = false ∧ e.replay = false ∧ e.links = []
        ∧ ∀ y, y ∈ s.sill.retired → y.id < e.id → ∀ w, w ∈ y.writes → ∀ r, r ∈ e.reads → overlap w r = false
      (¬ free → exec (.sillCrossing id) s = .next s)
      ∧ (free → s.sill.steps = [] → nextHas (exec (.sillCrossing id) s) (fun u =>
          u.sill.retired = s.sill.retired.filter (fun y => y.id != id) ∧ u.sill.outcomes = s.sill.outcomes ∧ u.mem = s.mem ∧ u.log = s.log
            ∧ ∀ t, t ∈ u.reds → ∀ v, v ∈ t.2.nodes → id ∉ v.2.cmds)))
    ∧ (x.queue = [] → exec (.replayStart panel) s = .next s)
    ∧ (∀ rest, x.queue = (l, id) :: rest →
        (∀ a b, x.work = .replay a b → exec (.replayStart panel) s = .next s)
        ∧ ((∀ a b, x.work ≠ .replay a b) → nextHas (exec (.replayStart panel) s) (fun u => u.spare panel = { work := .replay l id, queue := rest }
            ∧ counts u Reg.silReplays ∧ bit (u.reg Reg.silEvent) 0 = true ∧ u.mem = s.mem
            ∧ (s.dupEnt id = false → u.fld (Reg.silCoreChk (s.under l)) 0 8 = min (s.fld (Reg.silCoreChk (s.under l)) 0 8 + 1) 255)
            ∧ ∀ q, x.work = .test q → q < 17 → u.fld (Reg.silPanel panel + 4) q 1 = 1)))
    ∧ (x.work = .replay l id → ∀ err dup orig,
        let i := s.under l
        let ran := (s.spareOf panel).getD i
        let e := s.sill.retired.find? (fun y => y.id == id)
        let redo := s.sill.redo.filter (fun y => y.core == l && y.id == id)
        let charged (u : State) (k : Nat) : Prop := u.fld (Reg.silCoreChk k) 0 8 = min (s.fld (Reg.silCoreChk k) 0 8 + 1) 255
        (s.dupEnt id = false →
          (redo = [] → nextHas (exec (.replayComplete panel err dup orig) s) (fun u => (u.spare panel).work = .idle
            ∧ ∀ r, s.runOf l id = some r → r.replaying = true → below i 2 → below ran 2 →
                (∃ y, u.runOf l id = some y ∧ y.cmd = r.cmd ∧ y.replaying = false ∧ y.again = true)
                ∧ (4 < Desc.cls r.cmd.desc → u.runOf l id = some { r with replaying := false, again := true } ∧ u.phys = s.phys)))
          ∧ (∀ y, redo = [y] →
              let p := s.phy i
              let free : Prop := (p.slot y.at_).st = .free ∧ (y.slot.pair = true → (p.slot (y.at_ + 1)).st = .free)
              (¬ free → nextHas (exec (.replayComplete panel err dup orig) s) (fun u => u.spare panel = x ∧ u.phys = s.phys ∧ u.mem = s.mem
                  ∧ u.log = s.log))
              ∧ (free → s.runOf l id = none → below i 0 → nextHas (exec (.replayComplete panel err dup orig) s) (fun u =>
                  (u.spare panel).work = .idle ∧ u.sill.redo = s.sill.redo.filter (fun z => z != y) ∧ u.mem = s.mem
                    ∧ ((u.phy i).slot y.at_).st = (if y.handle = none then .kept else .ready)
                    ∧ (u.phy i).hatch = p.hatch ++ y.handle.toList))))
        ∧ (s.dupEnt id = true → s.sill.steps = [] → nextHas (exec (.replayComplete panel err dup orig) s) (fun u => (u.spare panel).work = .idle
            ∧ (dup = true → below i 1 → ∀ y, e = some y →
                u.sill.retired.find? (fun z => z.id == id) = some { y with replay := false } ∧ charged u i)
            ∧ (dup = false → orig = true → ∀ j, s.spareOf panel = some j → below j 1 → ∀ y, e = some y →
                u.sill.retired.find? (fun z => z.id == id) = some { y with replay := false } ∧ charged u j
                  ∧ u.fld (Reg.silPanel panel + 4) (j % 17) 1 = 1)
            ∧ (dup = false → orig = false → u.sill.retired.find? (fun z => z.id == id) = none ∧ bit (u.reg Reg.silEvent) 1 = true
                ∧ (u.core l).doneStatus.find? id = some 0x30 ∧ ∃ ctx, (id, l, ctx, 0x30) ∈ u.sill.outcomes))))
    ∧ (x.work = .dup l id → ∀ same,
        (s.runOf l id ≠ none → exec (.duplicateCompare panel same) s = .next s)
        ∧ (s.runOf l id = none → ∀ e, s.sill.retired.find? (fun y => y.id == id) = some e →
            let hit : Prop := ∃ j, s.spareOf panel = some j ∧ e.engines.contains 0 = true ∧ s.fld (coreWin j + 0x1008) 0 2 ≠ 0
            nextHas (exec (.duplicateCompare panel same) s) (fun u => counts u Reg.silDups ∧ u.mem = s.mem
              ∧ (same = true ∧ ¬ hit → u.spare panel = { x with work := .idle }
                  ∧ u.sill.retired.find? (fun y => y.id == id) = some { e with dup := false, replay := false }
                  ∧ u.fld Reg.silDupMismatch 0 32 = s.fld Reg.silDupMismatch 0 32)
              ∧ (same = false ∨ hit → u.spare panel = { work := .idle, queue := x.queue ++ [(l, id)] } ∧ counts u Reg.silDupMismatch
                  ∧ u.sill.retired.find? (fun y => y.id == id) = some { e with dup := false, replay := true }
                  ∧ bit (u.reg Reg.silEvent) 2 = true))))
    ∧ (∀ r, s.sillRun c tag 0 = some r →
        let mine (o : Nat × Nat × Ctx × Nat) : Prop := sameCtx o.2.1 o.2.2.1 c r.cmd.ctx = true ∧ o.1 < r.cmd.id
        (s.allCrossed c r.cmd.ctx r.cmd.id = false → exec (.sillWait c tag) s = .next s)
        ∧ (s.allCrossed c r.cmd.ctx r.cmd.id = true → r.status = 0 → s.runOf c r.cmd.id = some r →
            nextHas (exec (.sillWait c tag) s) (fun u => (∀ o, o ∈ u.sill.outcomes ↔ o ∈ s.sill.outcomes ∧ ¬ mine o)
              ∧ ∃ y, u.runOf c r.cmd.id = some y ∧ y.done = true
                ∧ ((∀ o, o ∈ s.sill.outcomes → ¬ mine o) → y.status = 0)
                ∧ ∀ o, o ∈ s.sill.outcomes → mine o → (∀ o', o' ∈ s.sill.outcomes → mine o' → o'.1 ≠ o.1 → o.1 < o'.1) →
                    (∀ o', o' ∈ s.sill.outcomes → mine o' → o'.1 = o.1 → o' = o) → y.status = o.2.2.2)))

/-- R531, R532, R533, R534: a step record enters COLLECT with its STEP command; a READY of a child is kept; a COMMIT is acted on at once;
a child that is late makes this module send FAIL; without a COMMIT the record aborts when it sent FAIL, and else is IN_DOUBT until
RESOLVE. -/
def Obligations.StepTree : Prop :=
  ∀ (s : State) (j : Fin 16) (c : Fin 128) (tag : Fin 4096) (p : Fin 6) (vc : Fin 4) (f : Frag) (w : Writer) (v : Word),
    let st := s.stepState j
    let step := s.stf j 8 0 32
    let g := s.stepGroup j
    let kids := treeChildren (s.treeSize g) (s.myRank g 0)
    let ended (u : State) (code : Nat) : Prop := u.stepState j = 0 ∧ u.stf j 0x20 48 3 = code ∧ u.stf j 0x20 0 48 = s.turnNo
      ∧ u.sill.steps.find? j = none
    let moved (u : State) (o : Nat) (sw : Bool) : Prop := s.shut = [] → sw = false →
      u.stf j 8 0 32 = (step + if o = 3 then 0 else 1) % 2 ^ 32 ∧ u.stf j 4 0 32 = (s.stf j 4 0 32 + if o = 1 then 1 else 0) % 2 ^ 32
        ∧ (o = 3 → u.stf j 0x14 0 32 = min (s.stf j 0x14 0 32 + 1) (2 ^ 32 - 1))
    (∀ r, s.sillRun c tag 1 = some r → Desc.f r.cmd.desc 0x10 4 4 = j → s.runOf c r.cmd.id = some r →
      (st ≠ 0 ∨ step ≠ Desc.f r.cmd.desc 0x14 0 32 → r.status = 0 → nextHas (exec (.sillStep c tag) s) (fun u =>
          ∃ y, u.runOf c r.cmd.id = some y ∧ y.done = true ∧ y.status = 0x34))
      ∧ (st = 0 → step = Desc.f r.cmd.desc 0x14 0 32 → s.allCrossed c r.cmd.ctx r.cmd.id = false →
          nextHas (exec (.sillStep c tag) s) (fun u => u.stepState j = 1 ∧ u.runOf c r.cmd.id = some { r with issuedAll := true }
            ∧ ∃ y, u.sill.steps.find? j = some y ∧ y.core = c ∧ y.id = r.cmd.id ∧ y.own = none ∧ y.collectTurn = s.turn.ticks)))
    ∧ (headFrag s p vc 8 f → f.arg % 16 = j →
        let late : Prop := f.arg / 2 ^ 32 ≠ step ∨ 1 < st ∨ ∀ k, k ∈ kids → s.rankId g k ≠ f.src
        (late → nextHas (exec (.ready p vc) s) (fun u => consumed s u p vc ∧ u.sill = s.sill
            ∧ u.stf j 0x28 0 32 = min (s.stf j 0x28 0 32 + 1) (2 ^ 32 - 1)))
        ∧ (¬ late → st = 0 → nextHas (exec (.ready p vc) s) (fun u => consumed s u p vc ∧ u.mem = s.mem
            ∧ ∃ y k, u.sill.steps.find? j = some y ∧ k ∈ kids ∧ s.rankId g k = f.src ∧ y.got.find? k = some f.arg))
        ∧ (¬ late → st = 1 → ∀ x k, s.sill.steps.find? j = some x → kids.find? (fun r => s.rankId g r == f.src) = some k →
            (x.own = none → s.runOf x.core x.id = none → nextHas (exec (.ready p vc) s) (fun u => consumed s u p vc ∧ u.stepState j = 1
              ∧ u.sill.steps.find? j = some { x with got := x.got.put k f.arg }))
            ∧ (x.own ≠ none → (∀ r, r ∈ kids → r ≠ k → x.got.find? r ≠ none) → nextHas (exec (.ready p vc) s) (fun u =>
                consumed s u p vc ∧ u.stepState j = (if s.myRank g 0 = 0 then 0 else 2)))))
    ∧ (headFrag s p vc 9 f → f.arg % 16 = j →
        let o := if argBit f.arg 12 then 3 else if argBit f.arg 10 then 2 else 1
        let now : Prop := (st = 1 ∨ st = 2) ∧ f.arg / 2 ^ 32 = step
        (now → nextHas (exec (.commit p vc) s) (fun u => consumed s u p vc ∧ ended u o ∧ moved u o (argBit f.arg 11)))
        ∧ (¬ now → nextHas (exec (.commit p vc) s) (fun u => consumed s u p vc ∧ u.sill = s.sill
            ∧ u.stf j 0x28 0 32 = min (s.stf j 0x28 0 32 + 1) (2 ^ 32 - 1))))
    ∧ (∀ x, s.sill.steps.find? j = some x →
        let due (t : Nat) : Prop := t + s.stf j 0 24 8 ≤ s.turn.ticks
        (st = 1 → (∃ k, k ∈ kids ∧ x.got.find? k = none) → due x.collectTurn →
            (s.myRank g 0 ≠ 0 → nextHas (exec (.stepChildTimeout j) s) (fun u => u.stepState j = 2
                ∧ u.sill.steps.find? j = some { x with sentTurn := s.turn.ticks, sentFail := true }))
            ∧ (s.myRank g 0 = 0 → nextHas (exec (.stepChildTimeout j) s) (fun u => ended u 3 ∧ moved u 3 false)))
        ∧ (st ≠ 1 ∨ ¬ due x.collectTurn ∨ (∀ k, k ∈ kids → x.got.find? k ≠ none) → exec (.stepChildTimeout j) s = .next s)
        ∧ (st = 2 → due x.sentTurn →
            (x.sentFail = true → nextHas (exec (.stepCommitTimeout j) s) (fun u => ended u 3 ∧ moved u 3 false))
            ∧ (x.sentFail = false → nextHas (exec (.stepCommitTimeout j) s) (fun u => bit (u.reg Reg.silEvent) 7 = true
                ∧ u.sill.steps.find? j = none ∧ (s.shut = [] → u.stepState j = 3 ∧ u.stf j 0x20 48 3 = 4 ∧ u.stf j 0x20 0 48 = s.turnNo
                  ∧ u.stf j 8 0 32 = step))))
        ∧ (st ≠ 2 ∨ ¬ due x.sentTurn → exec (.stepCommitTimeout j) s = .next s))
    ∧ (let o := bits v 3 3
       let may : Prop := s.writesFor w (s.stf j 0 12 4) = true ∧ st = 3 ∧ 1 ≤ o ∧ o ≤ 3
       (may → nextHas (exec (.resolve w j v) s) (fun u => ended u o ∧ moved u o (bit v 6)))
       ∧ (¬ may → exec (.resolve w j v) s = .next s))

/-- R536, R537, R538, R543: the next core for test gives its logical slot to the spare at a pre-emption point and is tested; one that
passes is the spare, one that fails leaves service; its array meets an injection (R129); requests are kept until they are served. -/
def Obligations.RollingTest : Prop :=
  ∀ (s : State) (panel : Fin 8),
    let r := Reg.silPanel panel
    let x := s.spare panel
    (∀ q j, s.nextTest panel = some q → s.spareOf panel = some j →
      let i := 17 * panel.val + q
      let started (u : State) : Prop := u.spare panel = { x with work := .test q } ∧ u.fld (r + 4) q 1 = 0 ∧ u.fld r 7 5 = q ∧ u.mem = s.mem
      (x.work ≠ .idle ∨ x.queue ≠ [] → exec (.rollingTestStart panel) s = .next s)
      ∧ (x.work = .idle → x.queue = [] →
          (s.logOf i = none → i = j → nextHas (exec (.rollingTestStart panel) s) (fun u => started u ∧ u.coreMap = s.coreMap))
          ∧ (∀ l, s.logOf i = some l → s.atPoint l = true → nextHas (exec (.rollingTestStart panel) s) (fun u => started u
              ∧ u.physOf l = some j ∧ u.fld r 2 5 = 0x1F ∧ (∀ k, k ≠ l → u.physOf k = s.physOf k) ∧ u.log = s.log))
          ∧ (∀ l, s.logOf i = some l → s.atPoint l = false → exec (.rollingTestStart panel) s = .next s)))
    ∧ (s.nextTest panel = none ∨ s.spareOf panel = none → exec (.rollingTestStart panel) s = .next s)
    ∧ (∀ q, x.work = .test q → q < 17 →
        nextHas (exec (.rollingTestComplete panel true) s) (fun u => u.spare panel = { x with work := .idle } ∧ u.fld r 2 5 = q
          ∧ u.fld r 12 5 = q ∧ u.fld r 7 5 = 0x1F ∧ u.fld (Reg.silCoreChk (17 * panel + q)) 0 8 = 0
          ∧ u.fld Reg.silTests 0 32 = min (s.fld Reg.silTests 0 32 + 1) (2 ^ 32 - 1) ∧ u.mem = s.mem
          ∧ u.fld (coreWin (17 * panel + q) + 0x1008) 0 2 = 0)
        ∧ nextHas (exec (.rollingTestComplete panel false) s) (fun u => (u.spare panel).work = .idle
          ∧ u.fld (r + 8) q 1 = 1 ∧ bit (u.reg Reg.silEvent) 4 = true))
    ∧ ((∀ q, x.work ≠ .test q) → ∀ pass, exec (.rollingTestComplete panel pass) s = .next s)
    ∧ (∀ q v, exec (.testRequest q panel v) s = .next (if s.hears q then s.setReg (r + 4) (s.reg (r + 4) ||| (v &&& 0x1FFFF)) else s))

/-! ### The Shutter (19_shutter_snapshots_and_recovery.md) -/

/-- R550, R552, R553, R554, R560, R561: a Shutter record is enabled when it stands the checks of R550, keeping COMPLETE banks of the same
layout; BEGIN decides whether the step is taken and says so in the plan word; CAPTURE waits for its gather, SEND and SERVE send what
their ranges hold, STREAM writes a header and the bank to host memory; each refuses by the code of its rule. -/
def Obligations.Shutter : Prop :=
  ∀ (s : State) (w : Writer) (i : Fin 4) (v : Word) (c : Fin 128) (tag : Fin 4096),
    let quiet : Prop := ∀ k y, (k, y) ∈ s.shut → y.readers = []
    let a := shutRec i
    let s0 := if w = .joinery then (s.setRec a 12 4 (bits v 12 4)).setRec a 5 1 (bits v 5 1) else s
    let s' := (s0.setRec a 4 1 (bits v 4 1)).setRec a 16 10 (bits v 16 10)
    let same : Prop := (s.shutter i).last
      = some (s'.hf i 8 0 48, s'.hf i 0x18 0 32, s'.hf i 0x1C 0 32, s'.hf i 0x20 0 9, s'.keptPos i)
    let x (r : Run) := s.shutter (shutIdx r.cmd.desc)
    let mine (op : Nat) (r : Run) : Prop := s.shutRun c tag op = some r ∧ s.runOf c r.cmd.id = some r ∧ r.status = 0
    let ended (u : State) (r : Run) (st : Nat) : Prop := ∃ y, u.runOf c r.cmd.id = some y ∧ y.done = true ∧ y.status = st
    let reach (m : Nat) : Prop := s.routePort s.myId m < 6 ∧ s.portReady (s.routePort s.myId m) = true
    let parts (n : Nat) : Nat := (n + fragMax * 2 ^ 20 - 1) / (fragMax * 2 ^ 20)
    let sound (b n : Nat) : Prop := ∀ k, b / 64 ≤ k → k ≤ (b + n) / 64 → s.poisoned k = false ∧ s.pcState (hbmMap (64 * k)).pc ≠ 3
    (s.writesFor w (s.shutPart i) = true →
      (s.shutState i = 0 → s'.shutOk i = true → nextHas (exec (.shutterEnable w i v) s) (fun u => u.shutState i = 1 ∧ u.hf i 0 3 1 = 0
          ∧ u.hf i 4 12 12 = s'.keptPos i ∧ (u.shutter i).caps = []
          ∧ ∀ b, b < 2 → (same → s.bankState i b = 3 → u.bankState i b = 3) ∧ (¬ same ∨ s.bankState i b ≠ 3 → u.bankState i b = 0)))
      ∧ (s.shutState i = 0 → s'.shutOk i = false → nextHas (exec (.shutterEnable w i v) s) (fun u => u.shutState i = 0
          ∧ u.hf i 0 3 1 = 1 ∧ u.shut = s.shut))
      ∧ (s.shutState i ≠ 0 → exec (.shutterEnable w i v) s = .next s')
      ∧ nextHas (exec (.shutterDisable w i v) s) (fun u => u.shutState i = 0 ∧ u.shut = s.shut
          ∧ ∀ b, b < 2 → u.bankState i b = s.bankState i b))
    ∧ (s.writesFor w (s.shutPart i) = false → exec (.shutterEnable w i v) s = .next s ∧ exec (.shutterDisable w i v) s = .next s)
    ∧ (∀ r, mine 0 r → quiet → (x r).bank < 2 →
        let d : Desc := r.cmd.desc
        let j := shutIdx d
        let step := d.f 0x14 0 32
        let again : Prop := s.shutState j = 2 ∧ s.hf j 0x2C 0 32 = step
        let takes : Prop := again ∨ (s.shutState j = 1 ∧ s.hf j 0x28 0 32 ≤ step)
        s.inPart r.cmd.part (d.f 0x18 0 64) 8 = true → stacksUp s →
        (takes → nextHas (exec (.begin_ c tag) s) (fun u => ∃ b, b < 2 ∧ ended u r 0
            ∧ u.peekN (d.f 0x18 0 64) 8 = 1 + b * 2 + step * 2 ^ 32 ∧ u.shutState j = 2 ∧ u.hf j 0x2C 0 32 = step
            ∧ u.hf j 0x50 0 64 = 0 ∧ u.bankState j b = 1 ∧ (u.shutter j).bank = b ∧ (u.shutter j).caps = (x r).caps ∧ (again → b = (x r).bank)
            ∧ (¬ again → s.bankState j 0 = 3 → s.bankState j 1 ≠ 3 → b = 1)))
        ∧ (¬ takes → nextHas (exec (.begin_ c tag) s) (fun u => ended u r 0 ∧ u.peekN (d.f 0x18 0 64) 8 = step * 2 ^ 32
            ∧ u.shutState j = s.shutState j)))
    ∧ (∀ r, mine 1 r →
        let d : Desc := r.cmd.desc
        let j := shutIdx d
        let g := d.f 0x28 0 6
        let n := d.f 0x28 6 10
        let here : Prop := (∃ y, y ∈ s.msg.ctxs ∧ y.kind = 1 ∧ y.arg % 2 ^ 28 = g + n * 2 ^ 6 + s.keeps j * 2 ^ 16)
          ∨ ∃ y, s.inst? g n = some y ∧ s.keeps j ∈ y.got
        (s.taking j (d.f 0x14 0 32) = false → nextHas (exec (.capture c tag) s) (fun u => ended u r 0xE1))
        ∧ (s.taking j (d.f 0x14 0 32) = true → here → nextHas (exec (.capture c tag) s) (fun u => ended u r 0xE2))
        ∧ (s.taking j (d.f 0x14 0 32) = true → ¬ here → nextHas (exec (.capture c tag) s) (fun u => u.mem = s.mem
            ∧ u.runOf c r.cmd.id = some { r with issuedAll := true }
            ∧ ∃ y, (u.shutter j).caps = (x r).caps ++ [y] ∧ y.core = c.val ∧ y.id = r.cmd.id ∧ y.group = g ∧ y.inst = n
              ∧ y.epoch = d.f 0x2A 0 16 ∧ y.written = 0
              ∧ y.elems = d.f 0x30 0 32 + 1 ∧ y.lo = s.bankAddr j (x r).bank + d.f 0x18 0 64)))
    ∧ (∀ r, mine 2 r →
        let d : Desc := r.cmd.desc
        let j := shutIdx d
        let k := parts (4096 * s.hf j 0x1C 0 32) + parts (4096 * s.hf j 0x20 0 9)
        (s.taking j (d.f 0x14 0 32) = false → nextHas (exec (.send_ c tag) s) (fun u => ended u r 0xE1))
        ∧ (s.taking j (d.f 0x14 0 32) = true → k = 0 → nextHas (exec (.send_ c tag) s) (fun u => ended u r 0))
        ∧ (s.taking j (d.f 0x14 0 32) = true → 0 < k → reach (s.replicaId (s.shutGroup j) (s.keeperPos j)) →
            nextHas (exec (.send_ c tag) s) (fun u => u.runOf c r.cmd.id = some { r with outstanding := k, issuedAll := true }
              ∧ u.msg.next = s.msg.next + k ∧ u.mem = s.mem)))
    ∧ (∀ r, mine 3 r →
        let d : Desc := r.cmd.desc
        let j := shutIdx d
        let b := d.f 0x10 5 1
        (s.bankState j b ≠ 3 → nextHas (exec (.serve c tag) s) (fun u => ended u r 0xE4))
        ∧ (s.bankState j b = 3 → s.bankPart j d ≠ 0 → reach (d.f 0x2C 0 20) → nextHas (exec (.serve c tag) s) (fun u =>
            u.runOf c r.cmd.id = some { r with outstanding := parts (s.bankPart j d), issuedAll := true }
              ∧ u.msg.next = s.msg.next + parts (s.bankPart j d)
              ∧ u.hf j (0x38 + 0x10 * b) 2 1 = 1 ∧ u.bankState j b = 3 ∧ (u.shutter j).readers = (c.val, r.cmd.id, b) :: (x r).readers)))
    ∧ (∀ r, mine 4 r →
        let d : Desc := r.cmd.desc
        let j := shutIdx d
        let b := d.f 0x10 5 1
        let n := s.bankPart j d
        let dst := d.f 0x18 0 64
        let g := s.shutGroup j
        let head := [s.hf j (0x30 + 0x10 * b) 0 32, s.hf j (0x34 + 0x10 * b) 0 32, s.groupEpoch g, s.keeps j, s.inner g - 1,
          s.outer g - 1, s.hf j 0x18 0 32, s.hf j 0x1C 0 32, s.hf j 0x20 0 9].flatMap (toBytes 4) ++ List.replicate 220 0
        (s.bankState j b ≠ 3 ∨ s.hf j 0 5 1 = 0 → nextHas (exec (.stream c tag) s) (fun u => ended u r 0xE4))
        ∧ (s.bankState j b = 3 → s.hf j 0 5 1 = 1 → s.inPart r.cmd.part (s.bankAddr j b) n = true → sound (s.bankAddr j b) n →
            nextHas (exec (.stream c tag) s) (fun u => ended u r 0 ∧ u.out.take 2 = [.hostWrite 1 (dst + 256) (s.peek (s.bankAddr j b) n),
              .hostWrite 1 dst head])))

/-! ### Starts, trust, management and registers (20 to 23) -/

/-- R565, R567, R577, R579, R580, R583, R649, R650: with power a cold start runs, and ends ready with both counts 0, or at a step that fails,
with die power off and COLD_FAILS one higher, or still under way; after three that failed the recovery stand. Losing power keeps module
flash alone, and spoils what was being programmed. A warm request that ends ready has both counts 0; at WARM_FAILS 3 it is a cold one. -/
def Obligations.Starts : Prop :=
  ∀ (s : State) (h0 sb : Bool) (as : List Attempt),
    nextHas (exec (.inputGood h0 sb as) s) (fun u => (s.start.input = true → u = s)
      ∧ (s.start.input = false → coldEnds s as u ∧ u.start.input = true ∧ u.start.sbRef = sb))
    ∧ (∀ c, c = .pwrEnLow ∨ c = .inputUndervoltage → nextHas (exec c s) (fun u => (s.start.input = false → u = s)
      ∧ (s.start.input = true → u.start.input = false ∧ u.start.ready = false ∧ u.mem = [] ∧ u.regs = []
          ∧ u.out.head? = some (.pin "PWR_GOOD" false) ∧ (s.asserted 2 = false → s.flt.shutdown = false → u.out.tail = s.out)
          ∧ (s.start.rec_.state ≠ 1 ∨ s.start.rec_.pass < 2 → u.flash = { s.flash with slotBad := s.flash.slotBad || s.start.staging })
          ∧ (s.start.rec_.state = 1 → 2 ≤ s.start.rec_.pass → if s.start.rec_.op = 1 then u.flash = { s.flash with slotBad := true }
              else u.flash = { s.flash with slotBad := s.flash.slotBad || s.start.staging, configBad := true }))))
    ∧ nextHas (exec (.modResetPulse as) s) (fun u => (s.start.ready = true → s.flt.shutdown = false → warmEnds s u)
      ∧ (s.start.ready = false ∨ s.flt.shutdown = true → u = s))
    ∧ nextHas (exec (.startStepTimeout as) s) (fun u => (s.start.busy = false ∨ s.start.dieOff = true → u = s)
      ∧ (s.start.busy = true → s.start.dieOff = false → (s.start.kind = 1 → warmEnds s u)
          ∧ (s.start.kind ≠ 1 → u.fld Reg.strEvent 1 1 = 1 ∧ u.start.dieOff = true ∧ u.flash.cause = 9 ∧ u.flash.failStep = s.start.step
              ∧ u.flash.coldFails = s.flash.coldFails ∧ u.mem = s.mem)))
    ∧ nextHas (exec (.coldRetryDelay as) s) (fun u => (s.start.dieOff = true → coldEnds s as u) ∧ (s.start.dieOff = false → u = s))

/-- R566, R580, R581, R615: what a completed STR_RESTART pair does, and the three orders of the recovery stand. -/
def Obligations.RestartsAndRecovery : Prop :=
  ∀ (s : State) (r : Requester) (v c : Word) (p : Fin 2) (as : List Attempt),
    let n := (s.reg Reg.recLen).toNat
    let addr := (s.reg Reg.recAddrLo).toNat + 2 ^ 32 * (s.reg Reg.recAddrHi).toNat
    let good (most : Nat) : Prop := n ≠ 0 ∧ n % 4096 = 0 ∧ n / 4096 ≤ most
    let load (i : Instr) (op most : Nat) : Prop := nextHas (exec i s) (fun u =>
      (s.recTakes = false → u = s)
      ∧ (s.recTakes = true → ¬ good most → u = { s with start := u.start } ∧ u.start.rec_.state = 3 ∧ u.start.rec_.err = 1)
      ∧ (s.recTakes = true → good most → u.start.rec_.state = 1 ∧ u.start.rec_.pass = 1 ∧ u.start.rec_.op = op ∧ u.start.rec_.len = n
          ∧ u.out = .hostRead p s.host.nextRead addr 4096 :: s.out
          ∧ u.host.reads.find? s.host.nextRead = some { port := p, addr := addr, len := 4096, use := .recovery 0 }))
    (∀ i, i = .warmRestartRequest r c as ∨ i = .coldRestartRequest r c as → opened s .strRestart v r → nextHas (exec i s) (fun u =>
      (c ≠ ~~~v → u.start = s.start ∧ dbFailed s u (DbReg.strRestart.off + 4) 3 r)
      ∧ (c = ~~~v → s.mayRestart r = false → u.start = s.start ∧ u.fld Reg.strEvent 4 1 = 1
          ∧ dbFailed s u (DbReg.strRestart.off + 4) 5 r)
      ∧ (c = ~~~v → s.mayRestart r = true →
          (bits v 0 2 = 1 → s.start.ready = true → s.flt.shutdown = false → warmEnds s u)
          ∧ (bits v 0 2 = 2 → s.start.ready = true ∨ s.flt.shutdown = true → s.someFatal = false → coldEnds s as u)
          ∧ (bits v 0 2 = 2 → s.someFatal = true → u.start = s.start)
          ∧ (bits v 0 2 = 0 ∨ bits v 0 2 = 3 → u = { s with latch := u.latch } ∧ u.latch.db = none))))
    ∧ load (.loadJoineryImage p) 1 16384 ∧ load (.loadConfigurationRecord p) 2 256
    ∧ nextHas (exec (.recColdStart p as) s) (fun u => (s.recTakes = false → u = s)
        ∧ (s.recTakes = true → coldEnds { s with flash := { s.flash with coldFails := 2 } } as u))

/-- R597, R599 to R601, R603, R604: the mailbox protocol, the four requests that Tumbler serves, and the SPDM exchange in its order. -/
def Obligations.TumblerRequests : Prop :=
  ∀ (s : State) (r : Requester) (k : Fin 3) (c : Fin 5) (slot : Fin 8) (off len : BitVec 16) (nonce : BitVec 256) (index code : Byte)
      (flashOk staging : Bool),
    let m := s.mailbox k
    let known : Prop := k.val = 0 → 4 ≤ s.mbxLen 0 ∧ 1 ≤ num (s.mbxMsg 0) 0 4 ∧ num (s.mbxMsg 0) 0 4 ≤ 4
    let asks : Prop := s.hears r = true ∧ r = mbxAsks k
    let b := s.mbxMsg 0
    let ended (u : State) (result : Nat) : Prop := u.mailbox 0 = { st := 2, result := result }
    let ss := cfgGood s.flashConfig
    let a := num b 4 8
    let n := num b 12 4
    let img := s.readHbm none a n
    let badStage : Prop := b.length < 16 ∨ n = 0 ∨ n / 4096 > 16384 ∨ s.unowned a n = false ∨ s.flt.shutdown = true
    let badRepair : Prop := b.length < 5 ∨ num b 4 1 = 0 ∨ num b 4 1 > 3
    let badCert : Prop := b.length < 12 ∨ num b 8 4 > 4096 ∨ num b 4 4 + num b 8 4 > s.slot0.length
    let say (u : State) (x : SpdmReply) : Prop := u = { s with out := u.out, drawn := u.drawn, start := u.start }
      ∧ u.out = (if c.val = 2 then [.ibi 0xAE] else []) ++ .spdm c x :: s.out
    let spdm (i : Instr) (stage : Nat) (P : State → Prop) : Prop := nextHas (exec i s) (fun u => (s.spdmOpen c = false → u = s)
      ∧ (s.spdmOpen c = true → s.spdmAt c < stage → say u (.error "UnexpectedRequest") ∧ u.start = s.start)
      ∧ (s.spdmOpen c = true → stage ≤ s.spdmAt c → P u))
    let bad (u : State) : Prop := say u (.error "InvalidRequest") ∧ u.start = s.start
    nextHas (exec (.mbxGo r k) s) (fun u =>
      (asks → m.st = 0 → known → u = { s with start := u.start } ∧ u.mailbox k = { m with st := 1 })
      ∧ (asks → m.st = 0 → ¬ known → u = { s with start := u.start } ∧ ended u 1) ∧ (¬ asks ∨ m.st ≠ 0 → u = s))
    ∧ nextHas (exec (.mbxAck r k) s) (fun u => (asks → m.st = 2 → u = { s with start := u.start } ∧ u.mailbox k = { m with st := 0 })
      ∧ (¬ asks ∨ m.st ≠ 2 → u = s))
    ∧ (s.asked 1 = none → exec .report s = .next s) ∧ (s.asked 2 = none → exec (.repair flashOk) s = .next s)
    ∧ (s.asked 3 = none → exec (.stageImage flashOk staging) s = .next s) ∧ (s.asked 4 = none → exec .getCert s = .next s)
    ∧ (s.asked 1 = some b → nextHas (exec .report s) (fun u => u.mem = s.mem ∧ (b.length < 36 → ended u 1)
        ∧ (36 ≤ b.length → ended u 0 ∧ ∃ sig : List Byte, sig.length = 132
            ∧ u.mbxMsg 0 = s.reportBody (cut b 4 32) ++ sig ++ List.replicate 124 0)))
    ∧ (s.asked 2 = some b → nextHas (exec (.repair flashOk) s) (fun u => u.mem = s.mem
        ∧ (badRepair → ended u 1 ∧ u.flash = s.flash)
        ∧ (¬ badRepair → ss.countP (·.type == 3) ≥ 1024 → ended u 4 ∧ u.flash = s.flash)
        ∧ (¬ badRepair → ss.countP (·.type == 3) < 1024 → flashOk = false → ended u 3 ∧ u.flash = s.flash)
        ∧ (¬ badRepair → ss.countP (·.type == 3) < 1024 → flashOk = true → ended u 0
            ∧ u.flash = { s.flash with config := u.flash.config } ∧ cfgSeq u.flashConfig = (cfgSeq s.flashConfig + 1) % 2 ^ 32
            ∧ u.reg Reg.secCfg = BitVec.ofNat 32 (cfgSeq u.flashConfig))))
    ∧ (s.asked 3 = some b → nextHas (exec (.stageImage flashOk staging) s) (fun u =>
        (badStage → ended u 1 ∧ u.flash = s.flash)
        ∧ (¬ badStage → img.bad = true → ended u 1 ∧ u.flash = s.flash)
        ∧ (¬ badStage → img.bad = false → img.st.stageCheck img.bytes ≠ 0 → ended u (img.st.stageCheck img.bytes) ∧ u.flash = s.flash)
        ∧ (¬ badStage → img.bad = false → img.st.stageCheck img.bytes = 0 → staging = true → u.start.staging = true ∧ u.flash = s.flash)
        ∧ (¬ badStage → img.bad = false → img.st.stageCheck img.bytes = 0 → staging = false →
            (flashOk = false → ended u 3 ∧ u.flash = { s.flash with slotBad := true })
            ∧ (flashOk = true → ended u 0 ∧ u.start.staged = true
                ∧ u.flash = { s.flash with image := some img.bytes, slotBad := false }))))
    ∧ (s.asked 4 = some b → nextHas (exec .getCert s) (fun u => u.mem = s.mem ∧ (badCert → ended u 1)
        ∧ (¬ badCert → ended u 0 ∧ u.mbxMsg 0 = cut s.slot0 (num b 4 4) (num b 8 4))))
    ∧ spdm (.getVersion c) 0 (fun u => say u (.version 1 3) ∧ u.spdmAt c = 1)
    ∧ spdm (.getCapabilities c) 1 (fun u => say u (.capabilities true true true) ∧ u.spdmAt c = 2)
    ∧ spdm (.negotiateAlgorithms c) 2 (fun u => u.spdmAt c = 3
        ∧ say u (.algorithms "TPM_ALG_ECDSA_ECC_NIST_P521" "TPM_ALG_SHA_512" "TPM_ALG_SHA_512"))
    ∧ spdm (.getDigests c) 3 (fun u => say u (.digests 1 (sha512 s.slot0)))
    ∧ spdm (.getCertificate c slot off len) 3 (fun u =>
        (slot.val ≠ 0 ∨ s.slot0.length ≤ off.toNat → bad u)
        ∧ (slot.val = 0 → off.toNat < s.slot0.length → say u (.certificate 0 ((s.slot0.drop off.toNat).take len.toNat)
            (s.slot0.length - off.toNat - min len.toNat (s.slot0.length - off.toNat)))))
    ∧ spdm (.challenge c slot nonce) 3 (fun u => (slot.val ≠ 0 → bad u)
        ∧ (slot.val = 0 → ∃ own sig, own.length = 32 ∧ sig.length = 132 ∧ say u (.challenge own (sha512 s.slot0) sig)))
    ∧ (∀ signed, spdm (.getMeasurements c index signed nonce) 3 (fun u =>
        (8 ≤ index.toNat → index.toNat ≠ 255 → bad u)
        ∧ (index.toNat < 8 ∨ index.toNat = 255 →
            let ks := if index.toNat = 255 then [1, 2, 3, 4, 5, 6, 7] else if index.toNat = 0 then [] else [index.toNat]
            ∃ sig, sig.length = (if signed then 132 else 0)
              ∧ say u (.measurements (ks.map (fun i =>
                  (i, ([0x00, 0x01, 0x07, 0x03, 0x03, 0x02, 0x05] : List Nat).getD (i - 1) 0, [1, 2, 4].contains i, s.measurement i s.memStatus))) sig))))
    ∧ spdm (.spdmUnsupported c code) 0 (fun u => say u (.error "UnsupportedRequest") ∧ u.start = s.start)

/-- R607 to R611, R622: endpoint identifiers and the I3C address; until Joinery runs every PLDM command answers ERROR_NOT_READY; then
each answers what R611, R612 and R622 say of it. -/
def Obligations.PldmCommands : Prop :=
  ∀ (s : State) (e : Fin 3) (c : Fin 5) (x : Byte) (addr static : BitVec 7) (h : Word) (sensor : BitVec 16)
      (set : List (Fin 3 × Bool × BitVec 20)) (on : Bool) (op : FwOp),
    let i := sensor.toNat
    let b := if c.val < 3 then c.val else c.val - 2
    let say (u : State) (cc : Nat) (pl : List Nat) : Prop := u.out = (if c.val = 0 then [.ibi 0xAE] else []) ++ .pldm c cc pl :: s.out
      ∧ (3 ≤ c.val → u.mailbox (c - 2) = { st := 2, result := 0 }) ∧ (c.val < 3 → u.start.mbx = s.start.mbx)
    let odd (u : State) : Prop := ∃ cc, cc ≠ 0 ∧ say u cc []
    let free (u : State) : Prop := ∃ v, say u 0 [v]
    let served (q : Instr) (P : State → Prop) : Prop := nextHas (exec q s) (fun u => (s.pldmOpen c = false → u = s)
      ∧ (s.pldmOpen c = true → s.joineryRuns = false → say u 4 [])
      ∧ (s.pldmOpen c = true → s.joineryRuns = true → P u))
    nextHas (exec (.setEndpointId e x) s) (fun u => (s.mctpOpen e = false → u = s)
      ∧ (s.mctpOpen e = true → u = { s with out := u.out, start := u.start } ∧ u.start.eids.find? e = some x.toNat
          ∧ .mctp e [x] ∈ u.out))
    ∧ exec (.mctpTypeUnsupported e x) s = .next s
    ∧ nextHas (exec (.entdaa addr) s) (fun u => u = { s with start := { s.start with i3c := u.start.i3c } }
        ∧ u.start.i3c = (if s.tumblerRuns = true ∧ s.start.i3c = none then some addr.toNat else s.start.i3c))
    ∧ nextHas (exec (.setdasa static addr) s) (fun u => u = { s with start := { s.start with i3c := u.start.i3c } }
        ∧ u.start.i3c = (if s.tumblerRuns = true ∧ static = 0x52 ∧ s.start.i3c = none then some addr.toNat else s.start.i3c))
    ∧ served (.getTid c) (fun u => say u 0 [s.start.tid])
    ∧ served (.setTid c x) (fun u => say u 0 [] ∧ u.start.tid = x.toNat)
    ∧ served (.getPldmVersion c x) (fun u => (x = 2 → say u 0 [1, 3]) ∧ (x = 0 ∨ x = 5 → free u)
        ∧ (x ≠ 0 → x ≠ 2 → x ≠ 5 → odd u))
    ∧ served (.getPldmTypes c) (fun u => say u 0 [0, 2, 5])
    ∧ served (.getPldmCommands c x) (fun u => (x = 0 ∨ x = 2 ∨ x = 5 → say u 0 (pldmCommands x.toNat))
        ∧ (x ≠ 0 → x ≠ 2 → x ≠ 5 → odd u))
    ∧ served (.getPdr c h) (fun u => (h.toNat ≤ 29 → free u) ∧ (29 < h.toNat → odd u))
    ∧ served (.getPdrRepositoryInfo c) free
    ∧ served (.getSensorReading c sensor) (fun u =>
        (1 ≤ i → i ≤ 28 → say u 0 [s.sensorState i, s.fld (Reg.fltSensor i) 0 20]) ∧ (i = 0 ∨ 28 < i → odd u))
    ∧ served (.getStateSensorReadings c sensor) (fun u => (i = 29 → say u 0 [s.fld Reg.fltRepl 0 1]) ∧ (i ≠ 29 → odd u))
    ∧ served (.getSensorThresholds c sensor) (fun u => (i = 0 ∨ 28 < i → odd u)
        ∧ (1 ≤ i → i ≤ 28 → ∃ pl, say u 0 pl ∧ ∀ k up t, k < 3 → s.threshold i k up = some t → ∃ n, (pl.drop n).take 3 = [k, b2n up, t.toNat]))
    ∧ served (.setSensorThresholds c sensor set) (fun u =>
        (1 ≤ i → i ≤ 28 → (∀ y ∈ set, y.1.val = 0 ∧ (fixedThr i 0 y.2.1).isSome = true) → say u 0 []
          ∧ ∀ up v, set = [(0, up, v)] → u.threshold i 0 up = some (10 * v.toInt))
        ∧ ((∃ y ∈ set, y.1.val ≠ 0 ∨ fixedThr i 0 y.2.1 = none) → say u 2 [] ∧ u.flt = s.flt))
    ∧ served (.setEventReceiver c on) (fun u => (on = false → say u 0 [] ∧ b ∉ u.flt.receivers)
        ∧ (on = true → b ∈ u.flt.receivers ∧ u.flt.again = false ∧ .pldm c 0 [] ∈ u.out ∧ (s.flt.again = false → say u 0 [])))
    ∧ served (.pldmFirmwareUpdate c op) (fun u => (op = .inventory → free u) ∧ (op = .complete → say u 0 [])
        ∧ ∀ a data, op = .piece a data → data ≠ [] → (s.unowned a.toNat data.length = false → odd u)
            ∧ (s.unowned a.toNat data.length = true → stacksUp s → say u 0 []
                ∧ ∀ k, k < data.length → memGet u.mem (a.toNat + k) = data.getD k 0))
    ∧ (∀ ty, served (.pldmUnsupported c ty x) (fun u => say u 5 [] ∧ u.flt = s.flt))

/-- R612 to R615, R620, R621, R654: a sensor's reading and state, the shutdown at a fatal one, the duty step, the fault record's copy in
flash and its clearing, and the two reference clocks. -/
def Obligations.SensorsAndFaults : Prop :=
  ∀ (s : State) (id : Fin 28) (v : BitVec 20) (p : Fin 8) (r : Requester) (w c : Word) (sb : Bool),
    let i := id.val + 1
    let st := s.nextSensor i v.toInt
    let was := s.sensorState i
    let n := bits w 0 9
    let holdover (h b : Bool) : Bool := !(if s.baseSb then b else h)
    let trips : Prop := st = 3 ∧ was ≠ 3 ∧ s.flt.shutdown = false
    nextHas (exec (.sensorUpdate id v) s) (fun u => (s.tumblerRuns = false → u = s)
      ∧ (s.tumblerRuns = true → ¬ trips → u.sensorState i = st ∧ u.fld (Reg.fltSensor i) 0 20 = v.toNat
          ∧ u.flt.shutdown = s.flt.shutdown ∧ u.mem = s.mem ∧ u.start = s.start
          ∧ (st ≠ was → st ≠ 0 → bit (u.reg Reg.fltEvent) (2 + st) = true))
      ∧ (s.tumblerRuns = true → trips → u.flt.shutdown = true ∧ u.start.busy = false ∧ u.phys = [] ∧ u.log = []
          ∧ u.out.head? = some (.pin "THERM_TRIP_N" false) ∧ ∀ c ∈ u.mem, hbmEnd ≤ c.1))
    ∧ nextHas (exec (.dutyStep p) s) (fun u => u = { s with flt := { s.flt with duty := u.flt.duty } }
        ∧ u.duty p = (if s.throttled p = true then max 4 (s.duty p - 1) else min 16 (s.duty p + 1))
        ∧ ∀ k, k ≠ p.val → u.duty k = s.duty k)
    ∧ (s.flt.toCopy = [] ∨ s.joineryRuns = false → exec .faultCopyToFlash s = .next s)
    ∧ (∀ q l e, s.flt.toCopy = q :: l → s.joineryRuns = true → List.find? (fun (y : Nat × FltEntry) => y.2.seq == q) s.flt.entries = some e →
        nextHas (exec .faultCopyToFlash s) (fun u => u = { s with flt := u.flt } ∧ u.flt.entries = s.flt.entries
          ∧ u.flt.flash.find? (s.flt.flashNext % 32768) = some (e.2, false) ∧ u.flt.flashNext = (s.flt.flashNext + 1) % 32768
          ∧ q ∉ u.flt.toCopy))
    ∧ (opened s .fltClear w r → nextHas (exec (.fltClearPair r c) s) (fun u => u.latch.db = none ∧ u.mem = s.mem
        ∧ (c ≠ ~~~w → u.flt = s.flt ∧ dbFailed s u (DbReg.fltClear.off + 4) 3 r)
        ∧ (c = ~~~w → r ≠ .joinery → u.flt = s.flt ∧ dbFailed s u (DbReg.fltClear.off + 4) 5 r)
        ∧ (c = ~~~w → r = .joinery → n = 0 ∨ s.flt.count < n → u.flt = s.flt)
        ∧ (c = ~~~w → r = .joinery → 0 < n → n ≤ s.flt.count → n ≤ 256 →
            (∀ k, k < n → s.flt.entries.find? ((s.flt.head + k) % 256) ≠ none) → s.flt.head < 256 →
            u.flt.count = s.flt.count - n ∧ u.flt.head = (s.flt.head + n) % 256
              ∧ ∀ k, k < n → u.flt.entries.find? ((s.flt.head + k) % 256) = none)))
    ∧ nextHas (exec (.refclockLoss sb) s) (fun u =>
        (sb = true → u.start = { s.start with sbRef := false, holdover := holdover (s.hport 0).ref false })
        ∧ (sb = false → u.start = { s.start with holdover := holdover false s.start.sbRef } ∧ (u.hport 0).ref = false
            ∧ (u.hport 0).link = false))
    ∧ nextHas (exec (.refclockReturn sb) s) (fun u => u = { s with host := { s.host with ports := u.host.ports }, start := u.start }
        ∧ (u.hport 0).ref = ((s.hport 0).ref || !sb) ∧ (u.hport 0).link = (s.hport 0).link
        ∧ u.start = { s.start with sbRef := s.start.sbRef || sb, holdover := holdover ((s.hport 0).ref || !sb) (s.start.sbRef || sb) })

/-- R357, R367, R467, R572, R602, R631 to R637, R641: a strobe gives the pending fields of its own groups their values and no others, nor
what has arrived in its own cycle; which group is armed for the tick; a pair completes when its halves agree and come from one requester, and every other half is a
counted failure; what each completed pair writes. -/
def Obligations.LatchAndDeadbolt : Prop :=
  ∀ (s : State) (r : Requester) (m : BitVec 16) (off : Nat) (x : LwPend) (reg : DbReg) (v c : Word) (p : Fin 16) (j : Fin 192) (g : Fin 64),
    let mine := s.ownedBits r m
    let deaf : Prop := s.hears r = false
    let lost := count16 (m &&& ~~~mine)
    let pairs (i : Instr) (reg : DbReg) (P : State → Prop) : Prop :=
      (deaf → exec i s = .next s)
      ∧ (¬ deaf → s.latch.db = none → nextHas (exec i s) (fun u => u = { s with regs := u.regs } ∧ dbFailed s u (reg.off + 4) 4 r))
      ∧ (opened s reg v r → c ≠ ~~~v → nextHas (exec i s) (fun u => u = { s with regs := u.regs, latch := u.latch }
          ∧ dbFailed s u (reg.off + 4) 3 r))
      ∧ (opened s reg v r → c = ~~~v → r ≠ .joinery → nextHas (exec i s) (fun u => u = { s with regs := u.regs, latch := u.latch }
          ∧ dbFailed s u (reg.off + 4) 5 r))
      ∧ (opened s reg v r → c = ~~~v → r = .joinery → nextHas (exec i s) (fun u => u.latch.db = none ∧ P u))
    (deaf → exec (.latchStrobe r m) s = .next s ∧ exec (.latchTickArm r m) s = .next s)
    ∧ (¬ deaf → nextHas (exec (.latchStrobe r m) s) (fun u => u.mem = s.mem
        ∧ (s.latch.pend.filter (fun y => y.1 == off) = [(off, x)] → (regAcc off).lw ≠ 0 →
            (mine.getLsbD (s.lwGroup off) = true → off ∉ s.latch.arrived →
              u.reg off = (s.reg off &&& ~~~x.mask) ||| x.val ∧ u.latch.pend.find? off = none)
            ∧ (mine.getLsbD (s.lwGroup off) = false ∨ off ∈ s.latch.arrived → u.reg off = s.reg off ∧ u.latch.pend.find? off = some x))
        ∧ (s.latch.pend.find? Reg.lchIgnored = none → u.fld Reg.lchIgnored 0 16 = min (s.fld Reg.lchIgnored 0 16 + lost) (2 ^ 16 - 1))))
    ∧ (¬ deaf → nextHas (exec (.latchTickArm r m) s) (fun u => u = { s with regs := u.regs, latch := { s.latch with tick := u.latch.tick } }
        ∧ u.latch.tick = (s.latch.tick &&& ~~~(s.ownedBits r (BitVec.allOnes 16))) ||| mine
        ∧ u.fld Reg.lchIgnored 0 16 = min (s.fld Reg.lchIgnored 0 16 + lost) (2 ^ 16 - 1)))
    ∧ (deaf → exec (.deadboltValueWrite r reg v) s = .next s)
    ∧ (¬ deaf → reg ≠ .trnPeriod → reg ≠ .secLock ∨ r = .tumbler → nextHas (exec (.deadboltValueWrite r reg v) s) (fun u =>
        (s.latch.db = none → u = { s with latch := { s.latch with db := some { reg := reg, val := v, by_ := r } } })
        ∧ (s.latch.db ≠ none → u = { s with regs := u.regs, latch := u.latch } ∧ dbFailed s u reg.off 1 r)))
    ∧ (¬ deaf → r ≠ .tumbler → nextHas (exec (.deadboltValueWrite r .secLock v) s) (fun u => u = { s with regs := u.regs }
        ∧ u.fld Reg.secDenied 0 32 = min (s.fld Reg.secDenied 0 32 + 1) (2 ^ 32 - 1)))
    ∧ (s.latch.db = none → exec .deadboltLate s = .next s)
    ∧ (∀ d, s.latch.db = some d → nextHas (exec .deadboltLate s) (fun u => u = { s with regs := u.regs, latch := u.latch }
        ∧ dbFailed s u d.reg.off 2 d.by_))
    ∧ pairs (.memPartOwnPair r p c) (.memPartOwn p) (fun u =>
        u.fld (0x300400 + 8 * p) 0 2 = (if bits v 0 2 = 3 then s.fld (0x300400 + 8 * p) 0 2 else bits v 0 2)
        ∧ u.fld (0x300400 + 8 * p) 2 1 = bits v 2 1
        ∧ (s.partValid p = false → bit v 2 = true → u.rec_ (lossRec p) 0 8 = 16 ∧ u.rec_ (lossRec p) 32 32 = 2000)
        ∧ (s.partValid p = true ∨ bit v 2 = false → u.mem = s.mem))
    ∧ pairs (.memRangePair r j c) (.memRange j) (fun u => u = { s with regs := u.regs, latch := u.latch }
        ∧ u.reg (0x301000 + 8 * j) = (if j.val = 191 ∧ bit v 28 = true then s.reg (0x301000 + 8 * j) else v &&& 0x1F1F1F1F))
    ∧ pairs (.hqOwnPair r g c) (.hqOwn g) (fun u => u = { s with host := { s.host with owners := u.host.owners }, latch := u.latch }
        ∧ ((∀ q ∈ s.host.queues, q.1 / 256 = g → q.2.st = .off) → u.host.owners.find? g = some (bits v 0 2))
        ∧ ((∃ q ∈ s.host.queues, q.1 / 256 = g ∧ q.2.st ≠ .off) → u.host.owners = s.host.owners))
    ∧ pairs (.lchOwnPair r c) .lchOwn (fun u => u = { s with regs := u.regs, latch := u.latch } ∧ u.reg Reg.lchOwn = v)
    ∧ (r ≠ .tumbler → nextHas (exec (.secLockPair r c) s) (fun u => u = { s with regs := u.regs } ∧ u.reg Reg.secLock = s.reg Reg.secLock
        ∧ u.fld Reg.secDenied 0 32 = (if s.hears r = true then min (s.fld Reg.secDenied 0 32 + 1) (2 ^ 32 - 1) else s.fld Reg.secDenied 0 32)))
    ∧ (opened s .secLock v .tumbler → c = ~~~v → nextHas (exec (.secLockPair .tumbler c) s) (fun u =>
        u = { s with regs := u.regs, latch := u.latch } ∧ u.latch.db = none ∧ u.reg Reg.secLock = s.reg Reg.secLock ||| (v &&& 3)))

/-- R21, R359, R366, R461, R507, R626 to R629: a write reaches RW bits at once and holds LW bits pending, for a requester that may write
the register; of writes of a host and of Joinery in one cycle, Joinery's stands, whichever comes first; a write of SEQ_CMD is the operation that it names; a read answers the register's value, captures the high half of a low
one and clears RC bits, but not those of another's queue. -/
def Obligations.RegisterBus : Prop :=
  ∀ (s : State) (r : Requester) (off : BitVec 26) (v : Word) (i : Instr),
    let o := off.toNat
    let a := regAcc o
    let hears : Prop := s.bar0Hears r o = true
    let stores (u : State) (x : Word) : Prop := u.reg o = (s.reg o &&& ~~~(word a.rw)) ||| (x &&& word a.rw) ∧ u.mem = s.mem
      ∧ (a.lw ≠ 0 → u.latch.pend.find? o = some { mask := word a.lw, val := x &&& word a.lw } ∧ o ∈ u.latch.arrived)
      ∧ (a.lw = 0 → u.latch = { s.latch with writes := u.latch.writes }) ∧ ∀ k, k ≠ o → u.reg k = s.reg k
    let nothing (u : State) : Prop := u = { s with latch := { s.latch with writes := u.latch.writes } }
    let regulator : Prop := 0x300100 ≤ o ∧ o < 0x300200
    let owner : Prop := ∃ h, r.port? = some h ∧ s.partHost ((o - 0x300100) / 0x10) = h + 1
    let read : Prop := i = .rcRead r off ∨ i = .loCaptureRead r off
    (¬ hears → exec (.registerWrite r off v) s = .next s)
    ∧ (hears → o % 4 ≠ 0 → exec (.registerWrite r off v) s
        = .next (match r.port? with
          | some p => s.emit (.aer p)
          | none => s))
    ∧ (∀ e : Fin 262144, hears → r ≠ .tumbler → o = Reg.seqCmd r.code → e.val = bits v 0 18 →
        (bits v 20 4 = 1 → exec (.registerWrite r off v) s = exec (.activate r e) s)
        ∧ (bits v 20 4 = 2 → exec (.registerWrite r off v) s = exec (.retire r e) s))
    ∧ (o % 4 = 0 → o < 0x10000 → exec (.registerWrite r off v) s = .next s)
    ∧ (hears → o % 4 = 0 → 0x300000 ≤ o → o < 0x400000 → dbAt o = none → o ≠ Reg.memIrqEn → nextHas (exec (.registerWrite r off v) s) (fun u =>
        (s.latch.writes = [] → (r = .joinery → stores u v) ∧ (r ≠ .joinery → ¬ regulator → nothing u) ∧ (regulator → owner → stores u v)
          ∧ (regulator → r ≠ .joinery → ¬ owner → nothing u))
        ∧ (∀ w, s.latch.writes = [(.joinery, o, w)] → regulator → owner → stores u w)))
    ∧ (read → hears → o % 4 = 0 → nextHas (exec i s) (fun u => u.out.head? = some (.regData r o (s.view r o)) ∧ u.mem = s.mem
        ∧ (o < 0x100000 ∨ (0x200000 ≤ o ∧ o < 0x1000000) → u.reg o = s.reg o &&& ~~~(word a.rc) ∧ ∀ k, k ≠ o → u.reg k = s.reg k)
        ∧ (0x100000 ≤ o → o < 0x200000 → s.ownsQueue r ((o - 0x100000) / 0x40) = false → u.regs = s.regs)
        ∧ (o = Reg.glbTimeLo → u.cap.get 0 Reg.glbTimeHi = word (s.time / 2 ^ 32))
        ∧ (o = Reg.trnNumLo → u.cap.get 0 Reg.trnNumHi = word (s.turnNo / 2 ^ 32))
        ∧ (o = Reg.trnTickLo → u.cap.get 0 Reg.trnTickHi = word (s.turn.tick.toNat / 2 ^ 32))
        ∧ (o = Reg.trnEvent → u.turn.sinceRead = 0)))
    ∧ (read → hears → o % 4 ≠ 0 → exec i s = .next (match r.port? with
        | some p => s.emit (.completion p .unsupported [])
        | none => s))
    ∧ (read → ¬ hears → ∀ p, r.port? = some p → exec i s
        = .next (if s.portsLive = true then s.emit (.completion p s.deafStatus []) else s))
end

