-- ==== Sys2Proof/Laws/Tab.lean ====
section
/-!
SUPPORT. Laws/Tab.lean: the laws of sparse tables: what a read gives after a write, and that the strict order of the
keys is kept.
-/
namespace Sys2Proof.Tab
variable {α : Type}

@[simp] theorem find?_put_same (t : Tab α) (i : Nat) (v : α) : (t.put i v).find? i = some v := by
  induction t with
  | nil => simp [put, find?]
  | cons p r ih =>
    obtain ⟨k, w⟩ := p
    unfold put
    split
    · simp [find?]
    · split
      · simp [find?]
      · next h1 h2 => simp [find?, ih, Ne.symm h1]

theorem find?_put_other (t : Tab α) {i j : Nat} (v : α) (h : j ≠ i) : (t.put i v).find? j = t.find? j := by
  induction t with
  | nil => simp [put, find?, Ne.symm h]
  | cons p r ih =>
    obtain ⟨k, w⟩ := p
    unfold put
    split
    · next h1 => subst h1; simp [find?, Ne.symm h]
    · split
      · simp [find?, Ne.symm h]
      · simp [find?, ih]

theorem find?_put (t : Tab α) (i j : Nat) (v : α) : (t.put i v).find? j = if j = i then some v else t.find? j := by
  split
  · next h => subst h; simp
  · next h => exact find?_put_other t v h

@[simp] theorem find?_drop_same (t : Tab α) (i : Nat) : (t.drop i).find? i = none := by
  induction t with
  | nil => simp [drop, find?]
  | cons p r ih =>
    obtain ⟨k, w⟩ := p
    unfold drop
    split
    · exact ih
    · next h => simp [find?, h, ih]

theorem find?_drop_other (t : Tab α) {i j : Nat} (h : j ≠ i) : (t.drop i).find? j = t.find? j := by
  induction t with
  | nil => simp [drop, find?]
  | cons p r ih =>
    obtain ⟨k, w⟩ := p
    unfold drop
    split
    · next h1 => subst h1; simp [find?, Ne.symm h, ih]
    · simp [find?, ih]

@[simp] theorem get_put_same (d : α) (t : Tab α) (i : Nat) (v : α) : (t.put i v).get d i = v := by simp [get]

theorem get_put_other (d : α) (t : Tab α) {i j : Nat} (v : α) (h : j ≠ i) : (t.put i v).get d j = t.get d j := by
  simp [get, find?_put_other t v h]

theorem get_put (d : α) (t : Tab α) (i j : Nat) (v : α) : (t.put i v).get d j = if j = i then v else t.get d j := by
  unfold get
  rw [find?_put]
  split <;> rfl

@[simp] theorem get_drop_same (d : α) (t : Tab α) (i : Nat) : (t.drop i).get d i = d := by simp [get]

theorem get_drop_other (d : α) (t : Tab α) {i j : Nat} (h : j ≠ i) : (t.drop i).get d j = t.get d j := by
  simp [get, find?_drop_other t h]

@[simp] theorem get_nil (d : α) (i : Nat) : get d [] i = d := rfl

/-- Every key of the table is above `n`. -/
def above (n : Nat) (t : Tab α) : Bool := t.all (fun p => decide (n < p.1))

theorem rising_cons (k : Nat) (v : α) (r : Tab α) : rising ((k, v) :: r) = (above k r && rising r) := by
  induction r generalizing k v with
  | nil => simp [rising, above]
  | cons p q ih =>
    obtain ⟨b, w⟩ := p
    rw [rising, ih]
    rw [Bool.eq_iff_iff]
    simp only [above, Bool.and_eq_true, decide_eq_true_eq, List.all_cons, List.all_eq_true]
    constructor
    · rintro ⟨h1, h2, h3⟩
      exact ⟨⟨h1, fun x hx => lt_of_lt_of_lt' h1 (h2 x hx)⟩, h2, h3⟩
    · rintro ⟨⟨h1, -⟩, h2, h3⟩
      exact ⟨h1, h2, h3⟩
where
  lt_of_lt_of_lt' {a b c : Nat} (h : a < b) (h' : b < c) : a < c := Nat.lt_trans h h'

theorem above_put {n i : Nat} {t : Tab α} (v : α) (h : above n t = true) (hi : n < i) : above n (t.put i v) = true := by
  induction t with
  | nil => simp [put, above, hi]
  | cons p r ih =>
    obtain ⟨k, w⟩ := p
    simp only [above, List.all_cons, Bool.and_eq_true, decide_eq_true_eq] at h
    unfold put
    split
    · simp only [above, List.all_cons, Bool.and_eq_true, decide_eq_true_eq]; exact ⟨hi, h.2⟩
    · split
      · simp only [above, List.all_cons, Bool.and_eq_true, decide_eq_true_eq]; exact ⟨hi, h⟩
      · have := ih h.2
        simp only [above, List.all_cons, Bool.and_eq_true, decide_eq_true_eq]
        exact ⟨h.1, this⟩

theorem above_weaken {m n : Nat} {t : Tab α} (h : above n t = true) (hm : m ≤ n) : above m t = true := by
  simp only [above, List.all_eq_true, decide_eq_true_eq] at *
  exact fun x hx => Nat.lt_of_le_of_lt hm (h x hx)

theorem rising_put (t : Tab α) (i : Nat) (v : α) (h : rising t = true) : rising (t.put i v) = true := by
  induction t with
  | nil => simp [put, rising]
  | cons p r ih =>
    obtain ⟨k, w⟩ := p
    have h' := h
    rw [rising_cons, Bool.and_eq_true] at h'
    unfold put
    split
    · next e => subst e; rw [rising_cons, Bool.and_eq_true]; exact h'
    · split
      · next lt =>
        rw [rising_cons, Bool.and_eq_true]
        refine ⟨?_, h⟩
        simp only [above, List.all_cons, Bool.and_eq_true, decide_eq_true_eq]
        exact ⟨lt, above_weaken h'.1 (Nat.le_of_lt lt)⟩
      · next ne nlt =>
        rw [rising_cons, Bool.and_eq_true]
        exact ⟨above_put v h'.1 (by omega), ih h'.2⟩

theorem above_filter {n : Nat} {t : Tab α} (f : Nat × α → Bool) (h : above n t = true) : above n (t.filter f) = true := by
  simp only [above, List.all_eq_true, decide_eq_true_eq] at *
  exact fun x hx => h x (List.mem_filter.mp hx).1

theorem rising_filter (t : Tab α) (f : Nat × α → Bool) (h : rising t = true) : rising (t.filter f) = true := by
  induction t with
  | nil => rfl
  | cons p r ih =>
    obtain ⟨k, w⟩ := p
    rw [rising_cons, Bool.and_eq_true] at h
    simp only [List.filter_cons]
    split
    · rw [rising_cons, Bool.and_eq_true]; exact ⟨above_filter f h.1, ih h.2⟩
    · exact ih h.2

theorem drop_eq_filter (t : Tab α) (i : Nat) : t.drop i = t.filter (fun p => decide (i ≠ p.1)) := by
  induction t with
  | nil => rfl
  | cons p r ih =>
    obtain ⟨k, w⟩ := p
    unfold drop
    by_cases e : i = k
    · subst e; simpa using ih
    · simp [e, Ne.symm e, ih]

theorem rising_drop (t : Tab α) (i : Nat) (h : rising t = true) : rising (t.drop i) = true := by
  rw [drop_eq_filter]; exact rising_filter t _ h

end Sys2Proof.Tab
end

