-- ==== Sys2Proof/Laws/Memory.lean ====
section
/-!
SUPPORT. Laws/Memory.lean: the laws of device memory: what a byte reads after a write, and that every memory operation
keeps the canonical form.
-/
namespace Sys2Proof.Machine

theorem memGet_memPut (m : List Host.Cell) (a b : Nat) (v : Byte) : memGet (memPut m a v) b = if b = a then v else memGet m b := by
  unfold memGet memPut
  split
  · next h =>
    split
    · next e => subst e; simp [h]
    · next e => exact Tab.get_drop_other 0 m e
  · exact Tab.get_put 0 m a b v

theorem memGet_memPuts_before (bs : List Byte) (m : List Host.Cell) (a b : Nat) (h : b < a) :
    memGet (memPuts m a bs) b = memGet m b := by
  induction bs generalizing m a with
  | nil => rfl
  | cons x r ih =>
    unfold memPuts
    rw [ih _ _ (by omega), memGet_memPut, if_neg (by omega)]

/-- Every byte of a written range reads as written, every other byte as before. -/
theorem memGet_memPuts (bs : List Byte) (m : List Host.Cell) (a b : Nat) :
    memGet (memPuts m a bs) b = if a ≤ b ∧ b < a + bs.length then bs.getD (b - a) 0 else memGet m b := by
  induction bs generalizing m a with
  | nil =>
    rw [if_neg (by simp only [List.length_nil]; omega)]
    rfl
  | cons x r ih =>
    unfold memPuts
    rw [ih]
    by_cases h1 : b = a
    · subst h1
      rw [if_neg (by omega), memGet_memPut, if_pos rfl, if_pos (by simp)]
      simp
    · by_cases h2 : a + 1 ≤ b ∧ b < a + 1 + r.length
      · rw [if_pos h2, if_pos (by simp only [List.length_cons]; omega)]
        obtain ⟨k, rfl⟩ : ∃ k, b = a + 1 + k := ⟨b - (a + 1), by omega⟩
        have e1 : a + 1 + k - (a + 1) = k := by omega
        have e2 : a + 1 + k - a = k + 1 := by omega
        rw [e1, e2, List.getD_cons_succ]
      · rw [if_neg h2, memGet_memPut, if_neg h1, if_neg (by simp only [List.length_cons]; omega)]

theorem wf_def (m : List Host.Cell) : Memory.wf m = true ↔ Tab.rising m = true ∧ ∀ c ∈ m, c.2 ≠ 0 := by
  simp [Memory.wf]

@[simp] theorem wf_nil : Memory.wf [] = true := rfl

theorem mem_put_cases {α : Type} {t : Tab α} {i : Nat} {v : α} {c : Nat × α} (h : c ∈ t.put i v) : c = (i, v) ∨ c ∈ t := by
  induction t with
  | nil => simp [Tab.put] at h; exact .inl h
  | cons p r ih =>
    obtain ⟨k, w⟩ := p
    unfold Tab.put at h
    split at h
    · rcases List.mem_cons.mp h with h | h
      · exact .inl h
      · exact .inr (List.mem_cons_of_mem _ h)
    · split at h
      · rcases List.mem_cons.mp h with h | h
        · exact .inl h
        · exact .inr h
      · rcases List.mem_cons.mp h with h | h
        · exact .inr (h ▸ List.mem_cons_self ..)
        · rcases ih h with h | h
          · exact .inl h
          · exact .inr (List.mem_cons_of_mem _ h)

/-- Dropping entries keeps the canonical form. -/
theorem wf_filter (m : List Host.Cell) (f : Host.Cell → Bool) (h : Memory.wf m = true) : Memory.wf (m.filter f) = true := by
  rw [wf_def] at *
  exact ⟨Tab.rising_filter m f h.1, fun c hc => h.2 c (List.mem_filter.mp hc).1⟩

/-- A byte write keeps the canonical form. -/
theorem wf_memPut (m : List Host.Cell) (a : Nat) (b : Byte) (h : Memory.wf m = true) : Memory.wf (memPut m a b) = true := by
  unfold memPut
  split
  · rw [Tab.drop_eq_filter]; exact wf_filter m _ h
  · next hb =>
    rw [wf_def] at *
    refine ⟨Tab.rising_put m a b h.1, fun c hc => ?_⟩
    rcases mem_put_cases hc with e | e
    · subst e; exact hb
    · exact h.2 c e

/-- A write of bytes keeps the canonical form. -/
theorem wf_memPuts (bs : List Byte) (m : List Host.Cell) (a : Nat) (h : Memory.wf m = true) : Memory.wf (memPuts m a bs) = true := by
  induction bs generalizing m a with
  | nil => exact h
  | cons x r ih => exact ih _ _ (wf_memPut m a x h)

theorem wf_poke (s : State) (a : Nat) (bs : List Byte) (h : Memory.wf s.mem = true) : Memory.wf (s.poke a bs).mem = true :=
  wf_memPuts bs s.mem a h

theorem wf_setRec (s : State) (a lo w v : Nat) (h : Memory.wf s.mem = true) : Memory.wf (s.setRec a lo w v).mem = true :=
  wf_poke s a _ h

/-- The canonical form is determined by what the bytes read: equal memories are equal data. -/
theorem wf_reset : Memory.wf State.reset.mem = true := rfl

end Sys2Proof.Machine
end

