-- ==== Sys2Proof/Laws/State.lean ====
section
/-!
SUPPORT. Laws/State.lean: what each named update of the state leaves as it was and what it writes, one lemma per field and
update; and what the named reads give after a write.
-/
namespace Sys2Proof.Machine.State

section setReg
variable (s : State) (off : Nat) (v : Word)
@[simp] theorem setReg_pending : (s.setReg off v).pending = s.pending := rfl
@[simp] theorem setReg_cycles : (s.setReg off v).cycles = s.cycles := rfl
@[simp] theorem setReg_now4 : (s.setReg off v).now4 = s.now4 := rfl
@[simp] theorem setReg_drawn : (s.setReg off v).drawn = s.drawn := rfl
@[simp] theorem setReg_out : (s.setReg off v).out = s.out := rfl
@[simp] theorem setReg_mem : (s.setReg off v).mem = s.mem := rfl
@[simp] theorem setReg_poison : (s.setReg off v).poison = s.poison := rfl
@[simp] theorem setReg_regs : (s.setReg off v).regs = s.regs.put off v := rfl
@[simp] theorem setReg_cap : (s.setReg off v).cap = s.cap := rfl
@[simp] theorem setReg_latch : (s.setReg off v).latch = s.latch := rfl
@[simp] theorem setReg_turn : (s.setReg off v).turn = s.turn := rfl
@[simp] theorem setReg_log : (s.setReg off v).log = s.log := rfl
@[simp] theorem setReg_phys : (s.setReg off v).phys = s.phys := rfl
@[simp] theorem setReg_coreMap : (s.setReg off v).coreMap = s.coreMap := rfl
@[simp] theorem setReg_pcache : (s.setReg off v).pcache = s.pcache := rfl
@[simp] theorem setReg_nextCmd : (s.setReg off v).nextCmd = s.nextCmd := rfl
@[simp] theorem setReg_mc : (s.setReg off v).mc = s.mc := rfl
@[simp] theorem setReg_host : (s.setReg off v).host = s.host := rfl
@[simp] theorem setReg_flt : (s.setReg off v).flt = s.flt := rfl
@[simp] theorem setReg_start : (s.setReg off v).start = s.start := rfl
@[simp] theorem setReg_flash : (s.setReg off v).flash = s.flash := rfl
@[simp] theorem setReg_sill : (s.setReg off v).sill = s.sill := rfl
@[simp] theorem setReg_ports : (s.setReg off v).ports = s.ports := rfl
@[simp] theorem setReg_msg : (s.setReg off v).msg = s.msg := rfl
@[simp] theorem setReg_rings : (s.setReg off v).rings = s.rings := rfl
@[simp] theorem setReg_pools : (s.setReg off v).pools = s.pools := rfl
@[simp] theorem setReg_reds : (s.setReg off v).reds = s.reds := rfl
@[simp] theorem setReg_groups : (s.setReg off v).groups = s.groups := rfl
@[simp] theorem setReg_shut : (s.setReg off v).shut = s.shut := rfl
@[simp] theorem setReg_seq : (s.setReg off v).seq = s.seq := rfl
@[simp] theorem setReg_pre : (s.setReg off v).pre = s.pre := rfl
end setReg

section setFld
variable (s : State) (off lo w v : Nat)
@[simp] theorem setFld_pending : (s.setFld off lo w v).pending = s.pending := rfl
@[simp] theorem setFld_cycles : (s.setFld off lo w v).cycles = s.cycles := rfl
@[simp] theorem setFld_now4 : (s.setFld off lo w v).now4 = s.now4 := rfl
@[simp] theorem setFld_drawn : (s.setFld off lo w v).drawn = s.drawn := rfl
@[simp] theorem setFld_out : (s.setFld off lo w v).out = s.out := rfl
@[simp] theorem setFld_mem : (s.setFld off lo w v).mem = s.mem := rfl
@[simp] theorem setFld_poison : (s.setFld off lo w v).poison = s.poison := rfl
@[simp] theorem setFld_regs : (s.setFld off lo w v).regs = s.regs.put off (setBits (s.reg off) lo w v) := rfl
@[simp] theorem setFld_cap : (s.setFld off lo w v).cap = s.cap := rfl
@[simp] theorem setFld_latch : (s.setFld off lo w v).latch = s.latch := rfl
@[simp] theorem setFld_turn : (s.setFld off lo w v).turn = s.turn := rfl
@[simp] theorem setFld_log : (s.setFld off lo w v).log = s.log := rfl
@[simp] theorem setFld_phys : (s.setFld off lo w v).phys = s.phys := rfl
@[simp] theorem setFld_coreMap : (s.setFld off lo w v).coreMap = s.coreMap := rfl
@[simp] theorem setFld_pcache : (s.setFld off lo w v).pcache = s.pcache := rfl
@[simp] theorem setFld_nextCmd : (s.setFld off lo w v).nextCmd = s.nextCmd := rfl
@[simp] theorem setFld_mc : (s.setFld off lo w v).mc = s.mc := rfl
@[simp] theorem setFld_host : (s.setFld off lo w v).host = s.host := rfl
@[simp] theorem setFld_flt : (s.setFld off lo w v).flt = s.flt := rfl
@[simp] theorem setFld_start : (s.setFld off lo w v).start = s.start := rfl
@[simp] theorem setFld_flash : (s.setFld off lo w v).flash = s.flash := rfl
@[simp] theorem setFld_sill : (s.setFld off lo w v).sill = s.sill := rfl
@[simp] theorem setFld_ports : (s.setFld off lo w v).ports = s.ports := rfl
@[simp] theorem setFld_msg : (s.setFld off lo w v).msg = s.msg := rfl
@[simp] theorem setFld_rings : (s.setFld off lo w v).rings = s.rings := rfl
@[simp] theorem setFld_pools : (s.setFld off lo w v).pools = s.pools := rfl
@[simp] theorem setFld_reds : (s.setFld off lo w v).reds = s.reds := rfl
@[simp] theorem setFld_groups : (s.setFld off lo w v).groups = s.groups := rfl
@[simp] theorem setFld_shut : (s.setFld off lo w v).shut = s.shut := rfl
@[simp] theorem setFld_seq : (s.setFld off lo w v).seq = s.seq := rfl
@[simp] theorem setFld_pre : (s.setFld off lo w v).pre = s.pre := rfl
end setFld

section bumpFld
variable (s : State) (off lo w n : Nat)
@[simp] theorem bumpFld_pending : (s.bumpFld off lo w n).pending = s.pending := rfl
@[simp] theorem bumpFld_cycles : (s.bumpFld off lo w n).cycles = s.cycles := rfl
@[simp] theorem bumpFld_now4 : (s.bumpFld off lo w n).now4 = s.now4 := rfl
@[simp] theorem bumpFld_drawn : (s.bumpFld off lo w n).drawn = s.drawn := rfl
@[simp] theorem bumpFld_out : (s.bumpFld off lo w n).out = s.out := rfl
@[simp] theorem bumpFld_mem : (s.bumpFld off lo w n).mem = s.mem := rfl
@[simp] theorem bumpFld_poison : (s.bumpFld off lo w n).poison = s.poison := rfl
@[simp] theorem bumpFld_regs : (s.bumpFld off lo w n).regs = s.regs.put off (setBits (s.reg off) lo w (satAdd w (s.fld off lo w) n)) := rfl
@[simp] theorem bumpFld_cap : (s.bumpFld off lo w n).cap = s.cap := rfl
@[simp] theorem bumpFld_latch : (s.bumpFld off lo w n).latch = s.latch := rfl
@[simp] theorem bumpFld_turn : (s.bumpFld off lo w n).turn = s.turn := rfl
@[simp] theorem bumpFld_log : (s.bumpFld off lo w n).log = s.log := rfl
@[simp] theorem bumpFld_phys : (s.bumpFld off lo w n).phys = s.phys := rfl
@[simp] theorem bumpFld_coreMap : (s.bumpFld off lo w n).coreMap = s.coreMap := rfl
@[simp] theorem bumpFld_pcache : (s.bumpFld off lo w n).pcache = s.pcache := rfl
@[simp] theorem bumpFld_nextCmd : (s.bumpFld off lo w n).nextCmd = s.nextCmd := rfl
@[simp] theorem bumpFld_mc : (s.bumpFld off lo w n).mc = s.mc := rfl
@[simp] theorem bumpFld_host : (s.bumpFld off lo w n).host = s.host := rfl
@[simp] theorem bumpFld_flt : (s.bumpFld off lo w n).flt = s.flt := rfl
@[simp] theorem bumpFld_start : (s.bumpFld off lo w n).start = s.start := rfl
@[simp] theorem bumpFld_flash : (s.bumpFld off lo w n).flash = s.flash := rfl
@[simp] theorem bumpFld_sill : (s.bumpFld off lo w n).sill = s.sill := rfl
@[simp] theorem bumpFld_ports : (s.bumpFld off lo w n).ports = s.ports := rfl
@[simp] theorem bumpFld_msg : (s.bumpFld off lo w n).msg = s.msg := rfl
@[simp] theorem bumpFld_rings : (s.bumpFld off lo w n).rings = s.rings := rfl
@[simp] theorem bumpFld_pools : (s.bumpFld off lo w n).pools = s.pools := rfl
@[simp] theorem bumpFld_reds : (s.bumpFld off lo w n).reds = s.reds := rfl
@[simp] theorem bumpFld_groups : (s.bumpFld off lo w n).groups = s.groups := rfl
@[simp] theorem bumpFld_shut : (s.bumpFld off lo w n).shut = s.shut := rfl
@[simp] theorem bumpFld_seq : (s.bumpFld off lo w n).seq = s.seq := rfl
@[simp] theorem bumpFld_pre : (s.bumpFld off lo w n).pre = s.pre := rfl
end bumpFld

section bump
variable (s : State) (off n : Nat)
@[simp] theorem bump_pending : (s.bump off n).pending = s.pending := rfl
@[simp] theorem bump_cycles : (s.bump off n).cycles = s.cycles := rfl
@[simp] theorem bump_now4 : (s.bump off n).now4 = s.now4 := rfl
@[simp] theorem bump_drawn : (s.bump off n).drawn = s.drawn := rfl
@[simp] theorem bump_out : (s.bump off n).out = s.out := rfl
@[simp] theorem bump_mem : (s.bump off n).mem = s.mem := rfl
@[simp] theorem bump_poison : (s.bump off n).poison = s.poison := rfl
@[simp] theorem bump_regs : (s.bump off n).regs = s.regs.put off (setBits (s.reg off) 0 32 (satAdd 32 (s.fld off 0 32) n)) := rfl
@[simp] theorem bump_cap : (s.bump off n).cap = s.cap := rfl
@[simp] theorem bump_latch : (s.bump off n).latch = s.latch := rfl
@[simp] theorem bump_turn : (s.bump off n).turn = s.turn := rfl
@[simp] theorem bump_log : (s.bump off n).log = s.log := rfl
@[simp] theorem bump_phys : (s.bump off n).phys = s.phys := rfl
@[simp] theorem bump_coreMap : (s.bump off n).coreMap = s.coreMap := rfl
@[simp] theorem bump_pcache : (s.bump off n).pcache = s.pcache := rfl
@[simp] theorem bump_nextCmd : (s.bump off n).nextCmd = s.nextCmd := rfl
@[simp] theorem bump_mc : (s.bump off n).mc = s.mc := rfl
@[simp] theorem bump_host : (s.bump off n).host = s.host := rfl
@[simp] theorem bump_flt : (s.bump off n).flt = s.flt := rfl
@[simp] theorem bump_start : (s.bump off n).start = s.start := rfl
@[simp] theorem bump_flash : (s.bump off n).flash = s.flash := rfl
@[simp] theorem bump_sill : (s.bump off n).sill = s.sill := rfl
@[simp] theorem bump_ports : (s.bump off n).ports = s.ports := rfl
@[simp] theorem bump_msg : (s.bump off n).msg = s.msg := rfl
@[simp] theorem bump_rings : (s.bump off n).rings = s.rings := rfl
@[simp] theorem bump_pools : (s.bump off n).pools = s.pools := rfl
@[simp] theorem bump_reds : (s.bump off n).reds = s.reds := rfl
@[simp] theorem bump_groups : (s.bump off n).groups = s.groups := rfl
@[simp] theorem bump_shut : (s.bump off n).shut = s.shut := rfl
@[simp] theorem bump_seq : (s.bump off n).seq = s.seq := rfl
@[simp] theorem bump_pre : (s.bump off n).pre = s.pre := rfl
end bump

section drew
variable (s : State)
@[simp] theorem drew_pending : (s.drew).pending = s.pending := rfl
@[simp] theorem drew_cycles : (s.drew).cycles = s.cycles := rfl
@[simp] theorem drew_now4 : (s.drew).now4 = s.now4 := rfl
@[simp] theorem drew_drawn : (s.drew).drawn = s.drawn + 1 := rfl
@[simp] theorem drew_out : (s.drew).out = s.out := rfl
@[simp] theorem drew_mem : (s.drew).mem = s.mem := rfl
@[simp] theorem drew_poison : (s.drew).poison = s.poison := rfl
@[simp] theorem drew_regs : (s.drew).regs = s.regs := rfl
@[simp] theorem drew_cap : (s.drew).cap = s.cap := rfl
@[simp] theorem drew_latch : (s.drew).latch = s.latch := rfl
@[simp] theorem drew_turn : (s.drew).turn = s.turn := rfl
@[simp] theorem drew_log : (s.drew).log = s.log := rfl
@[simp] theorem drew_phys : (s.drew).phys = s.phys := rfl
@[simp] theorem drew_coreMap : (s.drew).coreMap = s.coreMap := rfl
@[simp] theorem drew_pcache : (s.drew).pcache = s.pcache := rfl
@[simp] theorem drew_nextCmd : (s.drew).nextCmd = s.nextCmd := rfl
@[simp] theorem drew_mc : (s.drew).mc = s.mc := rfl
@[simp] theorem drew_host : (s.drew).host = s.host := rfl
@[simp] theorem drew_flt : (s.drew).flt = s.flt := rfl
@[simp] theorem drew_start : (s.drew).start = s.start := rfl
@[simp] theorem drew_flash : (s.drew).flash = s.flash := rfl
@[simp] theorem drew_sill : (s.drew).sill = s.sill := rfl
@[simp] theorem drew_ports : (s.drew).ports = s.ports := rfl
@[simp] theorem drew_msg : (s.drew).msg = s.msg := rfl
@[simp] theorem drew_rings : (s.drew).rings = s.rings := rfl
@[simp] theorem drew_pools : (s.drew).pools = s.pools := rfl
@[simp] theorem drew_reds : (s.drew).reds = s.reds := rfl
@[simp] theorem drew_groups : (s.drew).groups = s.groups := rfl
@[simp] theorem drew_shut : (s.drew).shut = s.shut := rfl
@[simp] theorem drew_seq : (s.drew).seq = s.seq := rfl
@[simp] theorem drew_pre : (s.drew).pre = s.pre := rfl
end drew

section emit
variable (s : State) (o : Output)
@[simp] theorem emit_pending : (s.emit o).pending = s.pending := rfl
@[simp] theorem emit_cycles : (s.emit o).cycles = s.cycles := rfl
@[simp] theorem emit_now4 : (s.emit o).now4 = s.now4 := rfl
@[simp] theorem emit_drawn : (s.emit o).drawn = s.drawn := rfl
@[simp] theorem emit_out : (s.emit o).out = o :: s.out := rfl
@[simp] theorem emit_mem : (s.emit o).mem = s.mem := rfl
@[simp] theorem emit_poison : (s.emit o).poison = s.poison := rfl
@[simp] theorem emit_regs : (s.emit o).regs = s.regs := rfl
@[simp] theorem emit_cap : (s.emit o).cap = s.cap := rfl
@[simp] theorem emit_latch : (s.emit o).latch = s.latch := rfl
@[simp] theorem emit_turn : (s.emit o).turn = s.turn := rfl
@[simp] theorem emit_log : (s.emit o).log = s.log := rfl
@[simp] theorem emit_phys : (s.emit o).phys = s.phys := rfl
@[simp] theorem emit_coreMap : (s.emit o).coreMap = s.coreMap := rfl
@[simp] theorem emit_pcache : (s.emit o).pcache = s.pcache := rfl
@[simp] theorem emit_nextCmd : (s.emit o).nextCmd = s.nextCmd := rfl
@[simp] theorem emit_mc : (s.emit o).mc = s.mc := rfl
@[simp] theorem emit_host : (s.emit o).host = s.host := rfl
@[simp] theorem emit_flt : (s.emit o).flt = s.flt := rfl
@[simp] theorem emit_start : (s.emit o).start = s.start := rfl
@[simp] theorem emit_flash : (s.emit o).flash = s.flash := rfl
@[simp] theorem emit_sill : (s.emit o).sill = s.sill := rfl
@[simp] theorem emit_ports : (s.emit o).ports = s.ports := rfl
@[simp] theorem emit_msg : (s.emit o).msg = s.msg := rfl
@[simp] theorem emit_rings : (s.emit o).rings = s.rings := rfl
@[simp] theorem emit_pools : (s.emit o).pools = s.pools := rfl
@[simp] theorem emit_reds : (s.emit o).reds = s.reds := rfl
@[simp] theorem emit_groups : (s.emit o).groups = s.groups := rfl
@[simp] theorem emit_shut : (s.emit o).shut = s.shut := rfl
@[simp] theorem emit_seq : (s.emit o).seq = s.seq := rfl
@[simp] theorem emit_pre : (s.emit o).pre = s.pre := rfl
end emit

section setCore
variable (s : State) (l : Nat) (c : LCore)
@[simp] theorem setCore_pending : (s.setCore l c).pending = s.pending := rfl
@[simp] theorem setCore_cycles : (s.setCore l c).cycles = s.cycles := rfl
@[simp] theorem setCore_now4 : (s.setCore l c).now4 = s.now4 := rfl
@[simp] theorem setCore_drawn : (s.setCore l c).drawn = s.drawn := rfl
@[simp] theorem setCore_out : (s.setCore l c).out = s.out := rfl
@[simp] theorem setCore_mem : (s.setCore l c).mem = s.mem := rfl
@[simp] theorem setCore_poison : (s.setCore l c).poison = s.poison := rfl
@[simp] theorem setCore_regs : (s.setCore l c).regs = s.regs := rfl
@[simp] theorem setCore_cap : (s.setCore l c).cap = s.cap := rfl
@[simp] theorem setCore_latch : (s.setCore l c).latch = s.latch := rfl
@[simp] theorem setCore_turn : (s.setCore l c).turn = s.turn := rfl
@[simp] theorem setCore_log : (s.setCore l c).log = s.log.put l c := rfl
@[simp] theorem setCore_phys : (s.setCore l c).phys = s.phys := rfl
@[simp] theorem setCore_coreMap : (s.setCore l c).coreMap = s.coreMap := rfl
@[simp] theorem setCore_pcache : (s.setCore l c).pcache = s.pcache := rfl
@[simp] theorem setCore_nextCmd : (s.setCore l c).nextCmd = s.nextCmd := rfl
@[simp] theorem setCore_mc : (s.setCore l c).mc = s.mc := rfl
@[simp] theorem setCore_host : (s.setCore l c).host = s.host := rfl
@[simp] theorem setCore_flt : (s.setCore l c).flt = s.flt := rfl
@[simp] theorem setCore_start : (s.setCore l c).start = s.start := rfl
@[simp] theorem setCore_flash : (s.setCore l c).flash = s.flash := rfl
@[simp] theorem setCore_sill : (s.setCore l c).sill = s.sill := rfl
@[simp] theorem setCore_ports : (s.setCore l c).ports = s.ports := rfl
@[simp] theorem setCore_msg : (s.setCore l c).msg = s.msg := rfl
@[simp] theorem setCore_rings : (s.setCore l c).rings = s.rings := rfl
@[simp] theorem setCore_pools : (s.setCore l c).pools = s.pools := rfl
@[simp] theorem setCore_reds : (s.setCore l c).reds = s.reds := rfl
@[simp] theorem setCore_groups : (s.setCore l c).groups = s.groups := rfl
@[simp] theorem setCore_shut : (s.setCore l c).shut = s.shut := rfl
@[simp] theorem setCore_seq : (s.setCore l c).seq = s.seq := rfl
@[simp] theorem setCore_pre : (s.setCore l c).pre = s.pre := rfl
end setCore

section setThread
variable (s : State) (l t : Nat) (x : Thread)
@[simp] theorem setThread_pending : (s.setThread l t x).pending = s.pending := rfl
@[simp] theorem setThread_cycles : (s.setThread l t x).cycles = s.cycles := rfl
@[simp] theorem setThread_now4 : (s.setThread l t x).now4 = s.now4 := rfl
@[simp] theorem setThread_drawn : (s.setThread l t x).drawn = s.drawn := rfl
@[simp] theorem setThread_out : (s.setThread l t x).out = s.out := rfl
@[simp] theorem setThread_mem : (s.setThread l t x).mem = s.mem := rfl
@[simp] theorem setThread_poison : (s.setThread l t x).poison = s.poison := rfl
@[simp] theorem setThread_regs : (s.setThread l t x).regs = s.regs := rfl
@[simp] theorem setThread_cap : (s.setThread l t x).cap = s.cap := rfl
@[simp] theorem setThread_latch : (s.setThread l t x).latch = s.latch := rfl
@[simp] theorem setThread_turn : (s.setThread l t x).turn = s.turn := rfl
@[simp] theorem setThread_log : (s.setThread l t x).log = s.log.put l { s.core l with threads := (s.core l).threads.put t x } := rfl
@[simp] theorem setThread_phys : (s.setThread l t x).phys = s.phys := rfl
@[simp] theorem setThread_coreMap : (s.setThread l t x).coreMap = s.coreMap := rfl
@[simp] theorem setThread_pcache : (s.setThread l t x).pcache = s.pcache := rfl
@[simp] theorem setThread_nextCmd : (s.setThread l t x).nextCmd = s.nextCmd := rfl
@[simp] theorem setThread_mc : (s.setThread l t x).mc = s.mc := rfl
@[simp] theorem setThread_host : (s.setThread l t x).host = s.host := rfl
@[simp] theorem setThread_flt : (s.setThread l t x).flt = s.flt := rfl
@[simp] theorem setThread_start : (s.setThread l t x).start = s.start := rfl
@[simp] theorem setThread_flash : (s.setThread l t x).flash = s.flash := rfl
@[simp] theorem setThread_sill : (s.setThread l t x).sill = s.sill := rfl
@[simp] theorem setThread_ports : (s.setThread l t x).ports = s.ports := rfl
@[simp] theorem setThread_msg : (s.setThread l t x).msg = s.msg := rfl
@[simp] theorem setThread_rings : (s.setThread l t x).rings = s.rings := rfl
@[simp] theorem setThread_pools : (s.setThread l t x).pools = s.pools := rfl
@[simp] theorem setThread_reds : (s.setThread l t x).reds = s.reds := rfl
@[simp] theorem setThread_groups : (s.setThread l t x).groups = s.groups := rfl
@[simp] theorem setThread_shut : (s.setThread l t x).shut = s.shut := rfl
@[simp] theorem setThread_seq : (s.setThread l t x).seq = s.seq := rfl
@[simp] theorem setThread_pre : (s.setThread l t x).pre = s.pre := rfl
end setThread

section setPhy
variable (s : State) (i : Nat) (p : Phys)
@[simp] theorem setPhy_pending : (s.setPhy i p).pending = s.pending := rfl
@[simp] theorem setPhy_cycles : (s.setPhy i p).cycles = s.cycles := rfl
@[simp] theorem setPhy_now4 : (s.setPhy i p).now4 = s.now4 := rfl
@[simp] theorem setPhy_drawn : (s.setPhy i p).drawn = s.drawn := rfl
@[simp] theorem setPhy_out : (s.setPhy i p).out = s.out := rfl
@[simp] theorem setPhy_mem : (s.setPhy i p).mem = s.mem := rfl
@[simp] theorem setPhy_poison : (s.setPhy i p).poison = s.poison := rfl
@[simp] theorem setPhy_regs : (s.setPhy i p).regs = s.regs := rfl
@[simp] theorem setPhy_cap : (s.setPhy i p).cap = s.cap := rfl
@[simp] theorem setPhy_latch : (s.setPhy i p).latch = s.latch := rfl
@[simp] theorem setPhy_turn : (s.setPhy i p).turn = s.turn := rfl
@[simp] theorem setPhy_log : (s.setPhy i p).log = s.log := rfl
@[simp] theorem setPhy_phys : (s.setPhy i p).phys = s.phys.put i p := rfl
@[simp] theorem setPhy_coreMap : (s.setPhy i p).coreMap = s.coreMap := rfl
@[simp] theorem setPhy_pcache : (s.setPhy i p).pcache = s.pcache := rfl
@[simp] theorem setPhy_nextCmd : (s.setPhy i p).nextCmd = s.nextCmd := rfl
@[simp] theorem setPhy_mc : (s.setPhy i p).mc = s.mc := rfl
@[simp] theorem setPhy_host : (s.setPhy i p).host = s.host := rfl
@[simp] theorem setPhy_flt : (s.setPhy i p).flt = s.flt := rfl
@[simp] theorem setPhy_start : (s.setPhy i p).start = s.start := rfl
@[simp] theorem setPhy_flash : (s.setPhy i p).flash = s.flash := rfl
@[simp] theorem setPhy_sill : (s.setPhy i p).sill = s.sill := rfl
@[simp] theorem setPhy_ports : (s.setPhy i p).ports = s.ports := rfl
@[simp] theorem setPhy_msg : (s.setPhy i p).msg = s.msg := rfl
@[simp] theorem setPhy_rings : (s.setPhy i p).rings = s.rings := rfl
@[simp] theorem setPhy_pools : (s.setPhy i p).pools = s.pools := rfl
@[simp] theorem setPhy_reds : (s.setPhy i p).reds = s.reds := rfl
@[simp] theorem setPhy_groups : (s.setPhy i p).groups = s.groups := rfl
@[simp] theorem setPhy_shut : (s.setPhy i p).shut = s.shut := rfl
@[simp] theorem setPhy_seq : (s.setPhy i p).seq = s.seq := rfl
@[simp] theorem setPhy_pre : (s.setPhy i p).pre = s.pre := rfl
end setPhy

section setHport
variable (s : State) (p : Nat) (h : HostPort)
@[simp] theorem setHport_pending : (s.setHport p h).pending = s.pending := rfl
@[simp] theorem setHport_cycles : (s.setHport p h).cycles = s.cycles := rfl
@[simp] theorem setHport_now4 : (s.setHport p h).now4 = s.now4 := rfl
@[simp] theorem setHport_drawn : (s.setHport p h).drawn = s.drawn := rfl
@[simp] theorem setHport_out : (s.setHport p h).out = s.out := rfl
@[simp] theorem setHport_mem : (s.setHport p h).mem = s.mem := rfl
@[simp] theorem setHport_poison : (s.setHport p h).poison = s.poison := rfl
@[simp] theorem setHport_regs : (s.setHport p h).regs = s.regs := rfl
@[simp] theorem setHport_cap : (s.setHport p h).cap = s.cap := rfl
@[simp] theorem setHport_latch : (s.setHport p h).latch = s.latch := rfl
@[simp] theorem setHport_turn : (s.setHport p h).turn = s.turn := rfl
@[simp] theorem setHport_log : (s.setHport p h).log = s.log := rfl
@[simp] theorem setHport_phys : (s.setHport p h).phys = s.phys := rfl
@[simp] theorem setHport_coreMap : (s.setHport p h).coreMap = s.coreMap := rfl
@[simp] theorem setHport_pcache : (s.setHport p h).pcache = s.pcache := rfl
@[simp] theorem setHport_nextCmd : (s.setHport p h).nextCmd = s.nextCmd := rfl
@[simp] theorem setHport_mc : (s.setHport p h).mc = s.mc := rfl
@[simp] theorem setHport_host : (s.setHport p h).host = { s.host with ports := s.host.ports.put p h } := rfl
@[simp] theorem setHport_flt : (s.setHport p h).flt = s.flt := rfl
@[simp] theorem setHport_start : (s.setHport p h).start = s.start := rfl
@[simp] theorem setHport_flash : (s.setHport p h).flash = s.flash := rfl
@[simp] theorem setHport_sill : (s.setHport p h).sill = s.sill := rfl
@[simp] theorem setHport_ports : (s.setHport p h).ports = s.ports := rfl
@[simp] theorem setHport_msg : (s.setHport p h).msg = s.msg := rfl
@[simp] theorem setHport_rings : (s.setHport p h).rings = s.rings := rfl
@[simp] theorem setHport_pools : (s.setHport p h).pools = s.pools := rfl
@[simp] theorem setHport_reds : (s.setHport p h).reds = s.reds := rfl
@[simp] theorem setHport_groups : (s.setHport p h).groups = s.groups := rfl
@[simp] theorem setHport_shut : (s.setHport p h).shut = s.shut := rfl
@[simp] theorem setHport_seq : (s.setHport p h).seq = s.seq := rfl
@[simp] theorem setHport_pre : (s.setHport p h).pre = s.pre := rfl
end setHport

section setHost
variable (s : State) (h : HostSt)
@[simp] theorem setHost_pending : (s.setHost h).pending = s.pending := rfl
@[simp] theorem setHost_cycles : (s.setHost h).cycles = s.cycles := rfl
@[simp] theorem setHost_now4 : (s.setHost h).now4 = s.now4 := rfl
@[simp] theorem setHost_drawn : (s.setHost h).drawn = s.drawn := rfl
@[simp] theorem setHost_out : (s.setHost h).out = s.out := rfl
@[simp] theorem setHost_mem : (s.setHost h).mem = s.mem := rfl
@[simp] theorem setHost_poison : (s.setHost h).poison = s.poison := rfl
@[simp] theorem setHost_regs : (s.setHost h).regs = s.regs := rfl
@[simp] theorem setHost_cap : (s.setHost h).cap = s.cap := rfl
@[simp] theorem setHost_latch : (s.setHost h).latch = s.latch := rfl
@[simp] theorem setHost_turn : (s.setHost h).turn = s.turn := rfl
@[simp] theorem setHost_log : (s.setHost h).log = s.log := rfl
@[simp] theorem setHost_phys : (s.setHost h).phys = s.phys := rfl
@[simp] theorem setHost_coreMap : (s.setHost h).coreMap = s.coreMap := rfl
@[simp] theorem setHost_pcache : (s.setHost h).pcache = s.pcache := rfl
@[simp] theorem setHost_nextCmd : (s.setHost h).nextCmd = s.nextCmd := rfl
@[simp] theorem setHost_mc : (s.setHost h).mc = s.mc := rfl
@[simp] theorem setHost_host : (s.setHost h).host = h := rfl
@[simp] theorem setHost_flt : (s.setHost h).flt = s.flt := rfl
@[simp] theorem setHost_start : (s.setHost h).start = s.start := rfl
@[simp] theorem setHost_flash : (s.setHost h).flash = s.flash := rfl
@[simp] theorem setHost_sill : (s.setHost h).sill = s.sill := rfl
@[simp] theorem setHost_ports : (s.setHost h).ports = s.ports := rfl
@[simp] theorem setHost_msg : (s.setHost h).msg = s.msg := rfl
@[simp] theorem setHost_rings : (s.setHost h).rings = s.rings := rfl
@[simp] theorem setHost_pools : (s.setHost h).pools = s.pools := rfl
@[simp] theorem setHost_reds : (s.setHost h).reds = s.reds := rfl
@[simp] theorem setHost_groups : (s.setHost h).groups = s.groups := rfl
@[simp] theorem setHost_shut : (s.setHost h).shut = s.shut := rfl
@[simp] theorem setHost_seq : (s.setHost h).seq = s.seq := rfl
@[simp] theorem setHost_pre : (s.setHost h).pre = s.pre := rfl
end setHost

section setQueue
variable (s : State) (q : Nat) (v : Queue)
@[simp] theorem setQueue_pending : (s.setQueue q v).pending = s.pending := rfl
@[simp] theorem setQueue_cycles : (s.setQueue q v).cycles = s.cycles := rfl
@[simp] theorem setQueue_now4 : (s.setQueue q v).now4 = s.now4 := rfl
@[simp] theorem setQueue_drawn : (s.setQueue q v).drawn = s.drawn := rfl
@[simp] theorem setQueue_out : (s.setQueue q v).out = s.out := rfl
@[simp] theorem setQueue_mem : (s.setQueue q v).mem = s.mem := rfl
@[simp] theorem setQueue_poison : (s.setQueue q v).poison = s.poison := rfl
@[simp] theorem setQueue_regs : (s.setQueue q v).regs = s.regs := rfl
@[simp] theorem setQueue_cap : (s.setQueue q v).cap = s.cap := rfl
@[simp] theorem setQueue_latch : (s.setQueue q v).latch = s.latch := rfl
@[simp] theorem setQueue_turn : (s.setQueue q v).turn = s.turn := rfl
@[simp] theorem setQueue_log : (s.setQueue q v).log = s.log := rfl
@[simp] theorem setQueue_phys : (s.setQueue q v).phys = s.phys := rfl
@[simp] theorem setQueue_coreMap : (s.setQueue q v).coreMap = s.coreMap := rfl
@[simp] theorem setQueue_pcache : (s.setQueue q v).pcache = s.pcache := rfl
@[simp] theorem setQueue_nextCmd : (s.setQueue q v).nextCmd = s.nextCmd := rfl
@[simp] theorem setQueue_mc : (s.setQueue q v).mc = s.mc := rfl
@[simp] theorem setQueue_host : (s.setQueue q v).host = { s.host with queues := s.host.queues.put q v } := rfl
@[simp] theorem setQueue_flt : (s.setQueue q v).flt = s.flt := rfl
@[simp] theorem setQueue_start : (s.setQueue q v).start = s.start := rfl
@[simp] theorem setQueue_flash : (s.setQueue q v).flash = s.flash := rfl
@[simp] theorem setQueue_sill : (s.setQueue q v).sill = s.sill := rfl
@[simp] theorem setQueue_ports : (s.setQueue q v).ports = s.ports := rfl
@[simp] theorem setQueue_msg : (s.setQueue q v).msg = s.msg := rfl
@[simp] theorem setQueue_rings : (s.setQueue q v).rings = s.rings := rfl
@[simp] theorem setQueue_pools : (s.setQueue q v).pools = s.pools := rfl
@[simp] theorem setQueue_reds : (s.setQueue q v).reds = s.reds := rfl
@[simp] theorem setQueue_groups : (s.setQueue q v).groups = s.groups := rfl
@[simp] theorem setQueue_shut : (s.setQueue q v).shut = s.shut := rfl
@[simp] theorem setQueue_seq : (s.setQueue q v).seq = s.seq := rfl
@[simp] theorem setQueue_pre : (s.setQueue q v).pre = s.pre := rfl
end setQueue

section poke
variable (s : State) (a : Nat) (bs : List Byte)
@[simp] theorem poke_pending : (s.poke a bs).pending = s.pending := rfl
@[simp] theorem poke_cycles : (s.poke a bs).cycles = s.cycles := rfl
@[simp] theorem poke_now4 : (s.poke a bs).now4 = s.now4 := rfl
@[simp] theorem poke_drawn : (s.poke a bs).drawn = s.drawn := rfl
@[simp] theorem poke_out : (s.poke a bs).out = s.out := rfl
@[simp] theorem poke_mem : (s.poke a bs).mem = memPuts s.mem a bs := rfl
@[simp] theorem poke_poison : (s.poke a bs).poison = s.poison := rfl
@[simp] theorem poke_regs : (s.poke a bs).regs = s.regs := rfl
@[simp] theorem poke_cap : (s.poke a bs).cap = s.cap := rfl
@[simp] theorem poke_latch : (s.poke a bs).latch = s.latch := rfl
@[simp] theorem poke_turn : (s.poke a bs).turn = s.turn := rfl
@[simp] theorem poke_log : (s.poke a bs).log = s.log := rfl
@[simp] theorem poke_phys : (s.poke a bs).phys = s.phys := rfl
@[simp] theorem poke_coreMap : (s.poke a bs).coreMap = s.coreMap := rfl
@[simp] theorem poke_pcache : (s.poke a bs).pcache = s.pcache := rfl
@[simp] theorem poke_nextCmd : (s.poke a bs).nextCmd = s.nextCmd := rfl
@[simp] theorem poke_mc : (s.poke a bs).mc = s.mc := rfl
@[simp] theorem poke_host : (s.poke a bs).host = s.host := rfl
@[simp] theorem poke_flt : (s.poke a bs).flt = s.flt := rfl
@[simp] theorem poke_start : (s.poke a bs).start = s.start := rfl
@[simp] theorem poke_flash : (s.poke a bs).flash = s.flash := rfl
@[simp] theorem poke_sill : (s.poke a bs).sill = s.sill := rfl
@[simp] theorem poke_ports : (s.poke a bs).ports = s.ports := rfl
@[simp] theorem poke_msg : (s.poke a bs).msg = s.msg := rfl
@[simp] theorem poke_rings : (s.poke a bs).rings = s.rings := rfl
@[simp] theorem poke_pools : (s.poke a bs).pools = s.pools := rfl
@[simp] theorem poke_reds : (s.poke a bs).reds = s.reds := rfl
@[simp] theorem poke_groups : (s.poke a bs).groups = s.groups := rfl
@[simp] theorem poke_shut : (s.poke a bs).shut = s.shut := rfl
@[simp] theorem poke_seq : (s.poke a bs).seq = s.seq := rfl
@[simp] theorem poke_pre : (s.poke a bs).pre = s.pre := rfl
end poke

section setRec
variable (s : State) (a lo w v : Nat)
@[simp] theorem setRec_pending : (s.setRec a lo w v).pending = s.pending := rfl
@[simp] theorem setRec_cycles : (s.setRec a lo w v).cycles = s.cycles := rfl
@[simp] theorem setRec_now4 : (s.setRec a lo w v).now4 = s.now4 := rfl
@[simp] theorem setRec_drawn : (s.setRec a lo w v).drawn = s.drawn := rfl
@[simp] theorem setRec_out : (s.setRec a lo w v).out = s.out := rfl
@[simp] theorem setRec_mem : (s.setRec a lo w v).mem = memPuts s.mem a (toBytes 8 (setBits (BitVec.ofNat 64 (s.peekN a 8)) lo w v).toNat) := rfl
@[simp] theorem setRec_poison : (s.setRec a lo w v).poison = s.poison := rfl
@[simp] theorem setRec_regs : (s.setRec a lo w v).regs = s.regs := rfl
@[simp] theorem setRec_cap : (s.setRec a lo w v).cap = s.cap := rfl
@[simp] theorem setRec_latch : (s.setRec a lo w v).latch = s.latch := rfl
@[simp] theorem setRec_turn : (s.setRec a lo w v).turn = s.turn := rfl
@[simp] theorem setRec_log : (s.setRec a lo w v).log = s.log := rfl
@[simp] theorem setRec_phys : (s.setRec a lo w v).phys = s.phys := rfl
@[simp] theorem setRec_coreMap : (s.setRec a lo w v).coreMap = s.coreMap := rfl
@[simp] theorem setRec_pcache : (s.setRec a lo w v).pcache = s.pcache := rfl
@[simp] theorem setRec_nextCmd : (s.setRec a lo w v).nextCmd = s.nextCmd := rfl
@[simp] theorem setRec_mc : (s.setRec a lo w v).mc = s.mc := rfl
@[simp] theorem setRec_host : (s.setRec a lo w v).host = s.host := rfl
@[simp] theorem setRec_flt : (s.setRec a lo w v).flt = s.flt := rfl
@[simp] theorem setRec_start : (s.setRec a lo w v).start = s.start := rfl
@[simp] theorem setRec_flash : (s.setRec a lo w v).flash = s.flash := rfl
@[simp] theorem setRec_sill : (s.setRec a lo w v).sill = s.sill := rfl
@[simp] theorem setRec_ports : (s.setRec a lo w v).ports = s.ports := rfl
@[simp] theorem setRec_msg : (s.setRec a lo w v).msg = s.msg := rfl
@[simp] theorem setRec_rings : (s.setRec a lo w v).rings = s.rings := rfl
@[simp] theorem setRec_pools : (s.setRec a lo w v).pools = s.pools := rfl
@[simp] theorem setRec_reds : (s.setRec a lo w v).reds = s.reds := rfl
@[simp] theorem setRec_groups : (s.setRec a lo w v).groups = s.groups := rfl
@[simp] theorem setRec_shut : (s.setRec a lo w v).shut = s.shut := rfl
@[simp] theorem setRec_seq : (s.setRec a lo w v).seq = s.seq := rfl
@[simp] theorem setRec_pre : (s.setRec a lo w v).pre = s.pre := rfl
end setRec

section bumpRec
variable (s : State) (a lo w n : Nat)
@[simp] theorem bumpRec_pending : (s.bumpRec a lo w n).pending = s.pending := rfl
@[simp] theorem bumpRec_cycles : (s.bumpRec a lo w n).cycles = s.cycles := rfl
@[simp] theorem bumpRec_now4 : (s.bumpRec a lo w n).now4 = s.now4 := rfl
@[simp] theorem bumpRec_drawn : (s.bumpRec a lo w n).drawn = s.drawn := rfl
@[simp] theorem bumpRec_out : (s.bumpRec a lo w n).out = s.out := rfl
@[simp] theorem bumpRec_mem : (s.bumpRec a lo w n).mem = memPuts s.mem a (toBytes 8 (setBits (BitVec.ofNat 64 (s.peekN a 8)) lo w (satAdd w (s.rec_ a lo w) n)).toNat) := rfl
@[simp] theorem bumpRec_poison : (s.bumpRec a lo w n).poison = s.poison := rfl
@[simp] theorem bumpRec_regs : (s.bumpRec a lo w n).regs = s.regs := rfl
@[simp] theorem bumpRec_cap : (s.bumpRec a lo w n).cap = s.cap := rfl
@[simp] theorem bumpRec_latch : (s.bumpRec a lo w n).latch = s.latch := rfl
@[simp] theorem bumpRec_turn : (s.bumpRec a lo w n).turn = s.turn := rfl
@[simp] theorem bumpRec_log : (s.bumpRec a lo w n).log = s.log := rfl
@[simp] theorem bumpRec_phys : (s.bumpRec a lo w n).phys = s.phys := rfl
@[simp] theorem bumpRec_coreMap : (s.bumpRec a lo w n).coreMap = s.coreMap := rfl
@[simp] theorem bumpRec_pcache : (s.bumpRec a lo w n).pcache = s.pcache := rfl
@[simp] theorem bumpRec_nextCmd : (s.bumpRec a lo w n).nextCmd = s.nextCmd := rfl
@[simp] theorem bumpRec_mc : (s.bumpRec a lo w n).mc = s.mc := rfl
@[simp] theorem bumpRec_host : (s.bumpRec a lo w n).host = s.host := rfl
@[simp] theorem bumpRec_flt : (s.bumpRec a lo w n).flt = s.flt := rfl
@[simp] theorem bumpRec_start : (s.bumpRec a lo w n).start = s.start := rfl
@[simp] theorem bumpRec_flash : (s.bumpRec a lo w n).flash = s.flash := rfl
@[simp] theorem bumpRec_sill : (s.bumpRec a lo w n).sill = s.sill := rfl
@[simp] theorem bumpRec_ports : (s.bumpRec a lo w n).ports = s.ports := rfl
@[simp] theorem bumpRec_msg : (s.bumpRec a lo w n).msg = s.msg := rfl
@[simp] theorem bumpRec_rings : (s.bumpRec a lo w n).rings = s.rings := rfl
@[simp] theorem bumpRec_pools : (s.bumpRec a lo w n).pools = s.pools := rfl
@[simp] theorem bumpRec_reds : (s.bumpRec a lo w n).reds = s.reds := rfl
@[simp] theorem bumpRec_groups : (s.bumpRec a lo w n).groups = s.groups := rfl
@[simp] theorem bumpRec_shut : (s.bumpRec a lo w n).shut = s.shut := rfl
@[simp] theorem bumpRec_seq : (s.bumpRec a lo w n).seq = s.seq := rfl
@[simp] theorem bumpRec_pre : (s.bumpRec a lo w n).pre = s.pre := rfl
end bumpRec

section setPoison
variable (s : State) (b : Nat)
@[simp] theorem setPoison_pending : (s.setPoison b).pending = s.pending := rfl
@[simp] theorem setPoison_cycles : (s.setPoison b).cycles = s.cycles := rfl
@[simp] theorem setPoison_now4 : (s.setPoison b).now4 = s.now4 := rfl
@[simp] theorem setPoison_drawn : (s.setPoison b).drawn = s.drawn := rfl
@[simp] theorem setPoison_out : (s.setPoison b).out = s.out := rfl
@[simp] theorem setPoison_mem : (s.setPoison b).mem = s.mem := rfl
@[simp] theorem setPoison_poison : (s.setPoison b).poison = s.poison.put b () := rfl
@[simp] theorem setPoison_regs : (s.setPoison b).regs = s.regs := rfl
@[simp] theorem setPoison_cap : (s.setPoison b).cap = s.cap := rfl
@[simp] theorem setPoison_latch : (s.setPoison b).latch = s.latch := rfl
@[simp] theorem setPoison_turn : (s.setPoison b).turn = s.turn := rfl
@[simp] theorem setPoison_log : (s.setPoison b).log = s.log := rfl
@[simp] theorem setPoison_phys : (s.setPoison b).phys = s.phys := rfl
@[simp] theorem setPoison_coreMap : (s.setPoison b).coreMap = s.coreMap := rfl
@[simp] theorem setPoison_pcache : (s.setPoison b).pcache = s.pcache := rfl
@[simp] theorem setPoison_nextCmd : (s.setPoison b).nextCmd = s.nextCmd := rfl
@[simp] theorem setPoison_mc : (s.setPoison b).mc = s.mc := rfl
@[simp] theorem setPoison_host : (s.setPoison b).host = s.host := rfl
@[simp] theorem setPoison_flt : (s.setPoison b).flt = s.flt := rfl
@[simp] theorem setPoison_start : (s.setPoison b).start = s.start := rfl
@[simp] theorem setPoison_flash : (s.setPoison b).flash = s.flash := rfl
@[simp] theorem setPoison_sill : (s.setPoison b).sill = s.sill := rfl
@[simp] theorem setPoison_ports : (s.setPoison b).ports = s.ports := rfl
@[simp] theorem setPoison_msg : (s.setPoison b).msg = s.msg := rfl
@[simp] theorem setPoison_rings : (s.setPoison b).rings = s.rings := rfl
@[simp] theorem setPoison_pools : (s.setPoison b).pools = s.pools := rfl
@[simp] theorem setPoison_reds : (s.setPoison b).reds = s.reds := rfl
@[simp] theorem setPoison_groups : (s.setPoison b).groups = s.groups := rfl
@[simp] theorem setPoison_shut : (s.setPoison b).shut = s.shut := rfl
@[simp] theorem setPoison_seq : (s.setPoison b).seq = s.seq := rfl
@[simp] theorem setPoison_pre : (s.setPoison b).pre = s.pre := rfl
end setPoison

section clearPoison
variable (s : State) (b : Nat)
@[simp] theorem clearPoison_pending : (s.clearPoison b).pending = s.pending := rfl
@[simp] theorem clearPoison_cycles : (s.clearPoison b).cycles = s.cycles := rfl
@[simp] theorem clearPoison_now4 : (s.clearPoison b).now4 = s.now4 := rfl
@[simp] theorem clearPoison_drawn : (s.clearPoison b).drawn = s.drawn := rfl
@[simp] theorem clearPoison_out : (s.clearPoison b).out = s.out := rfl
@[simp] theorem clearPoison_mem : (s.clearPoison b).mem = s.mem := rfl
@[simp] theorem clearPoison_poison : (s.clearPoison b).poison = s.poison.drop b := rfl
@[simp] theorem clearPoison_regs : (s.clearPoison b).regs = s.regs := rfl
@[simp] theorem clearPoison_cap : (s.clearPoison b).cap = s.cap := rfl
@[simp] theorem clearPoison_latch : (s.clearPoison b).latch = s.latch := rfl
@[simp] theorem clearPoison_turn : (s.clearPoison b).turn = s.turn := rfl
@[simp] theorem clearPoison_log : (s.clearPoison b).log = s.log := rfl
@[simp] theorem clearPoison_phys : (s.clearPoison b).phys = s.phys := rfl
@[simp] theorem clearPoison_coreMap : (s.clearPoison b).coreMap = s.coreMap := rfl
@[simp] theorem clearPoison_pcache : (s.clearPoison b).pcache = s.pcache := rfl
@[simp] theorem clearPoison_nextCmd : (s.clearPoison b).nextCmd = s.nextCmd := rfl
@[simp] theorem clearPoison_mc : (s.clearPoison b).mc = s.mc := rfl
@[simp] theorem clearPoison_host : (s.clearPoison b).host = s.host := rfl
@[simp] theorem clearPoison_flt : (s.clearPoison b).flt = s.flt := rfl
@[simp] theorem clearPoison_start : (s.clearPoison b).start = s.start := rfl
@[simp] theorem clearPoison_flash : (s.clearPoison b).flash = s.flash := rfl
@[simp] theorem clearPoison_sill : (s.clearPoison b).sill = s.sill := rfl
@[simp] theorem clearPoison_ports : (s.clearPoison b).ports = s.ports := rfl
@[simp] theorem clearPoison_msg : (s.clearPoison b).msg = s.msg := rfl
@[simp] theorem clearPoison_rings : (s.clearPoison b).rings = s.rings := rfl
@[simp] theorem clearPoison_pools : (s.clearPoison b).pools = s.pools := rfl
@[simp] theorem clearPoison_reds : (s.clearPoison b).reds = s.reds := rfl
@[simp] theorem clearPoison_groups : (s.clearPoison b).groups = s.groups := rfl
@[simp] theorem clearPoison_shut : (s.clearPoison b).shut = s.shut := rfl
@[simp] theorem clearPoison_seq : (s.clearPoison b).seq = s.seq := rfl
@[simp] theorem clearPoison_pre : (s.clearPoison b).pre = s.pre := rfl
end clearPoison

section setMc
variable (s : State) (m : MemSt)
@[simp] theorem setMc_pending : (s.setMc m).pending = s.pending := rfl
@[simp] theorem setMc_cycles : (s.setMc m).cycles = s.cycles := rfl
@[simp] theorem setMc_now4 : (s.setMc m).now4 = s.now4 := rfl
@[simp] theorem setMc_drawn : (s.setMc m).drawn = s.drawn := rfl
@[simp] theorem setMc_out : (s.setMc m).out = s.out := rfl
@[simp] theorem setMc_mem : (s.setMc m).mem = s.mem := rfl
@[simp] theorem setMc_poison : (s.setMc m).poison = s.poison := rfl
@[simp] theorem setMc_regs : (s.setMc m).regs = s.regs := rfl
@[simp] theorem setMc_cap : (s.setMc m).cap = s.cap := rfl
@[simp] theorem setMc_latch : (s.setMc m).latch = s.latch := rfl
@[simp] theorem setMc_turn : (s.setMc m).turn = s.turn := rfl
@[simp] theorem setMc_log : (s.setMc m).log = s.log := rfl
@[simp] theorem setMc_phys : (s.setMc m).phys = s.phys := rfl
@[simp] theorem setMc_coreMap : (s.setMc m).coreMap = s.coreMap := rfl
@[simp] theorem setMc_pcache : (s.setMc m).pcache = s.pcache := rfl
@[simp] theorem setMc_nextCmd : (s.setMc m).nextCmd = s.nextCmd := rfl
@[simp] theorem setMc_mc : (s.setMc m).mc = m := rfl
@[simp] theorem setMc_host : (s.setMc m).host = s.host := rfl
@[simp] theorem setMc_flt : (s.setMc m).flt = s.flt := rfl
@[simp] theorem setMc_start : (s.setMc m).start = s.start := rfl
@[simp] theorem setMc_flash : (s.setMc m).flash = s.flash := rfl
@[simp] theorem setMc_sill : (s.setMc m).sill = s.sill := rfl
@[simp] theorem setMc_ports : (s.setMc m).ports = s.ports := rfl
@[simp] theorem setMc_msg : (s.setMc m).msg = s.msg := rfl
@[simp] theorem setMc_rings : (s.setMc m).rings = s.rings := rfl
@[simp] theorem setMc_pools : (s.setMc m).pools = s.pools := rfl
@[simp] theorem setMc_reds : (s.setMc m).reds = s.reds := rfl
@[simp] theorem setMc_groups : (s.setMc m).groups = s.groups := rfl
@[simp] theorem setMc_shut : (s.setMc m).shut = s.shut := rfl
@[simp] theorem setMc_seq : (s.setMc m).seq = s.seq := rfl
@[simp] theorem setMc_pre : (s.setMc m).pre = s.pre := rfl
end setMc

section setTurn
variable (s : State) (t : TurnSt)
@[simp] theorem setTurn_pending : (s.setTurn t).pending = s.pending := rfl
@[simp] theorem setTurn_cycles : (s.setTurn t).cycles = s.cycles := rfl
@[simp] theorem setTurn_now4 : (s.setTurn t).now4 = s.now4 := rfl
@[simp] theorem setTurn_drawn : (s.setTurn t).drawn = s.drawn := rfl
@[simp] theorem setTurn_out : (s.setTurn t).out = s.out := rfl
@[simp] theorem setTurn_mem : (s.setTurn t).mem = s.mem := rfl
@[simp] theorem setTurn_poison : (s.setTurn t).poison = s.poison := rfl
@[simp] theorem setTurn_regs : (s.setTurn t).regs = s.regs := rfl
@[simp] theorem setTurn_cap : (s.setTurn t).cap = s.cap := rfl
@[simp] theorem setTurn_latch : (s.setTurn t).latch = s.latch := rfl
@[simp] theorem setTurn_turn : (s.setTurn t).turn = t := rfl
@[simp] theorem setTurn_log : (s.setTurn t).log = s.log := rfl
@[simp] theorem setTurn_phys : (s.setTurn t).phys = s.phys := rfl
@[simp] theorem setTurn_coreMap : (s.setTurn t).coreMap = s.coreMap := rfl
@[simp] theorem setTurn_pcache : (s.setTurn t).pcache = s.pcache := rfl
@[simp] theorem setTurn_nextCmd : (s.setTurn t).nextCmd = s.nextCmd := rfl
@[simp] theorem setTurn_mc : (s.setTurn t).mc = s.mc := rfl
@[simp] theorem setTurn_host : (s.setTurn t).host = s.host := rfl
@[simp] theorem setTurn_flt : (s.setTurn t).flt = s.flt := rfl
@[simp] theorem setTurn_start : (s.setTurn t).start = s.start := rfl
@[simp] theorem setTurn_flash : (s.setTurn t).flash = s.flash := rfl
@[simp] theorem setTurn_sill : (s.setTurn t).sill = s.sill := rfl
@[simp] theorem setTurn_ports : (s.setTurn t).ports = s.ports := rfl
@[simp] theorem setTurn_msg : (s.setTurn t).msg = s.msg := rfl
@[simp] theorem setTurn_rings : (s.setTurn t).rings = s.rings := rfl
@[simp] theorem setTurn_pools : (s.setTurn t).pools = s.pools := rfl
@[simp] theorem setTurn_reds : (s.setTurn t).reds = s.reds := rfl
@[simp] theorem setTurn_groups : (s.setTurn t).groups = s.groups := rfl
@[simp] theorem setTurn_shut : (s.setTurn t).shut = s.shut := rfl
@[simp] theorem setTurn_seq : (s.setTurn t).seq = s.seq := rfl
@[simp] theorem setTurn_pre : (s.setTurn t).pre = s.pre := rfl
end setTurn

section setProg
variable (s : State) (k : Nat) (p : Prog)
@[simp] theorem setProg_pending : (s.setProg k p).pending = s.pending := rfl
@[simp] theorem setProg_cycles : (s.setProg k p).cycles = s.cycles := rfl
@[simp] theorem setProg_now4 : (s.setProg k p).now4 = s.now4 := rfl
@[simp] theorem setProg_drawn : (s.setProg k p).drawn = s.drawn := rfl
@[simp] theorem setProg_out : (s.setProg k p).out = s.out := rfl
@[simp] theorem setProg_mem : (s.setProg k p).mem = s.mem := rfl
@[simp] theorem setProg_poison : (s.setProg k p).poison = s.poison := rfl
@[simp] theorem setProg_regs : (s.setProg k p).regs = s.regs := rfl
@[simp] theorem setProg_cap : (s.setProg k p).cap = s.cap := rfl
@[simp] theorem setProg_latch : (s.setProg k p).latch = s.latch := rfl
@[simp] theorem setProg_turn : (s.setProg k p).turn = { s.turn with progs := s.turn.progs.put k p } := rfl
@[simp] theorem setProg_log : (s.setProg k p).log = s.log := rfl
@[simp] theorem setProg_phys : (s.setProg k p).phys = s.phys := rfl
@[simp] theorem setProg_coreMap : (s.setProg k p).coreMap = s.coreMap := rfl
@[simp] theorem setProg_pcache : (s.setProg k p).pcache = s.pcache := rfl
@[simp] theorem setProg_nextCmd : (s.setProg k p).nextCmd = s.nextCmd := rfl
@[simp] theorem setProg_mc : (s.setProg k p).mc = s.mc := rfl
@[simp] theorem setProg_host : (s.setProg k p).host = s.host := rfl
@[simp] theorem setProg_flt : (s.setProg k p).flt = s.flt := rfl
@[simp] theorem setProg_start : (s.setProg k p).start = s.start := rfl
@[simp] theorem setProg_flash : (s.setProg k p).flash = s.flash := rfl
@[simp] theorem setProg_sill : (s.setProg k p).sill = s.sill := rfl
@[simp] theorem setProg_ports : (s.setProg k p).ports = s.ports := rfl
@[simp] theorem setProg_msg : (s.setProg k p).msg = s.msg := rfl
@[simp] theorem setProg_rings : (s.setProg k p).rings = s.rings := rfl
@[simp] theorem setProg_pools : (s.setProg k p).pools = s.pools := rfl
@[simp] theorem setProg_reds : (s.setProg k p).reds = s.reds := rfl
@[simp] theorem setProg_groups : (s.setProg k p).groups = s.groups := rfl
@[simp] theorem setProg_shut : (s.setProg k p).shut = s.shut := rfl
@[simp] theorem setProg_seq : (s.setProg k p).seq = s.seq := rfl
@[simp] theorem setProg_pre : (s.setProg k p).pre = s.pre := rfl
end setProg

section setSeq
variable (s : State) (x : SeqSt)
@[simp] theorem setSeq_pending : (s.setSeq x).pending = s.pending := rfl
@[simp] theorem setSeq_cycles : (s.setSeq x).cycles = s.cycles := rfl
@[simp] theorem setSeq_now4 : (s.setSeq x).now4 = s.now4 := rfl
@[simp] theorem setSeq_drawn : (s.setSeq x).drawn = s.drawn := rfl
@[simp] theorem setSeq_out : (s.setSeq x).out = s.out := rfl
@[simp] theorem setSeq_mem : (s.setSeq x).mem = s.mem := rfl
@[simp] theorem setSeq_poison : (s.setSeq x).poison = s.poison := rfl
@[simp] theorem setSeq_regs : (s.setSeq x).regs = s.regs := rfl
@[simp] theorem setSeq_cap : (s.setSeq x).cap = s.cap := rfl
@[simp] theorem setSeq_latch : (s.setSeq x).latch = s.latch := rfl
@[simp] theorem setSeq_turn : (s.setSeq x).turn = s.turn := rfl
@[simp] theorem setSeq_log : (s.setSeq x).log = s.log := rfl
@[simp] theorem setSeq_phys : (s.setSeq x).phys = s.phys := rfl
@[simp] theorem setSeq_coreMap : (s.setSeq x).coreMap = s.coreMap := rfl
@[simp] theorem setSeq_pcache : (s.setSeq x).pcache = s.pcache := rfl
@[simp] theorem setSeq_nextCmd : (s.setSeq x).nextCmd = s.nextCmd := rfl
@[simp] theorem setSeq_mc : (s.setSeq x).mc = s.mc := rfl
@[simp] theorem setSeq_host : (s.setSeq x).host = s.host := rfl
@[simp] theorem setSeq_flt : (s.setSeq x).flt = s.flt := rfl
@[simp] theorem setSeq_start : (s.setSeq x).start = s.start := rfl
@[simp] theorem setSeq_flash : (s.setSeq x).flash = s.flash := rfl
@[simp] theorem setSeq_sill : (s.setSeq x).sill = s.sill := rfl
@[simp] theorem setSeq_ports : (s.setSeq x).ports = s.ports := rfl
@[simp] theorem setSeq_msg : (s.setSeq x).msg = s.msg := rfl
@[simp] theorem setSeq_rings : (s.setSeq x).rings = s.rings := rfl
@[simp] theorem setSeq_pools : (s.setSeq x).pools = s.pools := rfl
@[simp] theorem setSeq_reds : (s.setSeq x).reds = s.reds := rfl
@[simp] theorem setSeq_groups : (s.setSeq x).groups = s.groups := rfl
@[simp] theorem setSeq_shut : (s.setSeq x).shut = s.shut := rfl
@[simp] theorem setSeq_seq : (s.setSeq x).seq = x := rfl
@[simp] theorem setSeq_pre : (s.setSeq x).pre = s.pre := rfl
end setSeq

section setSill
variable (s : State) (x : SillSt)
@[simp] theorem setSill_pending : (s.setSill x).pending = s.pending := rfl
@[simp] theorem setSill_cycles : (s.setSill x).cycles = s.cycles := rfl
@[simp] theorem setSill_now4 : (s.setSill x).now4 = s.now4 := rfl
@[simp] theorem setSill_drawn : (s.setSill x).drawn = s.drawn := rfl
@[simp] theorem setSill_out : (s.setSill x).out = s.out := rfl
@[simp] theorem setSill_mem : (s.setSill x).mem = s.mem := rfl
@[simp] theorem setSill_poison : (s.setSill x).poison = s.poison := rfl
@[simp] theorem setSill_regs : (s.setSill x).regs = s.regs := rfl
@[simp] theorem setSill_cap : (s.setSill x).cap = s.cap := rfl
@[simp] theorem setSill_latch : (s.setSill x).latch = s.latch := rfl
@[simp] theorem setSill_turn : (s.setSill x).turn = s.turn := rfl
@[simp] theorem setSill_log : (s.setSill x).log = s.log := rfl
@[simp] theorem setSill_phys : (s.setSill x).phys = s.phys := rfl
@[simp] theorem setSill_coreMap : (s.setSill x).coreMap = s.coreMap := rfl
@[simp] theorem setSill_pcache : (s.setSill x).pcache = s.pcache := rfl
@[simp] theorem setSill_nextCmd : (s.setSill x).nextCmd = s.nextCmd := rfl
@[simp] theorem setSill_mc : (s.setSill x).mc = s.mc := rfl
@[simp] theorem setSill_host : (s.setSill x).host = s.host := rfl
@[simp] theorem setSill_flt : (s.setSill x).flt = s.flt := rfl
@[simp] theorem setSill_start : (s.setSill x).start = s.start := rfl
@[simp] theorem setSill_flash : (s.setSill x).flash = s.flash := rfl
@[simp] theorem setSill_sill : (s.setSill x).sill = x := rfl
@[simp] theorem setSill_ports : (s.setSill x).ports = s.ports := rfl
@[simp] theorem setSill_msg : (s.setSill x).msg = s.msg := rfl
@[simp] theorem setSill_rings : (s.setSill x).rings = s.rings := rfl
@[simp] theorem setSill_pools : (s.setSill x).pools = s.pools := rfl
@[simp] theorem setSill_reds : (s.setSill x).reds = s.reds := rfl
@[simp] theorem setSill_groups : (s.setSill x).groups = s.groups := rfl
@[simp] theorem setSill_shut : (s.setSill x).shut = s.shut := rfl
@[simp] theorem setSill_seq : (s.setSill x).seq = s.seq := rfl
@[simp] theorem setSill_pre : (s.setSill x).pre = s.pre := rfl
end setSill

section setSpare
variable (s : State) (p : Nat) (x : Spare)
@[simp] theorem setSpare_pending : (s.setSpare p x).pending = s.pending := rfl
@[simp] theorem setSpare_cycles : (s.setSpare p x).cycles = s.cycles := rfl
@[simp] theorem setSpare_now4 : (s.setSpare p x).now4 = s.now4 := rfl
@[simp] theorem setSpare_drawn : (s.setSpare p x).drawn = s.drawn := rfl
@[simp] theorem setSpare_out : (s.setSpare p x).out = s.out := rfl
@[simp] theorem setSpare_mem : (s.setSpare p x).mem = s.mem := rfl
@[simp] theorem setSpare_poison : (s.setSpare p x).poison = s.poison := rfl
@[simp] theorem setSpare_regs : (s.setSpare p x).regs = s.regs := rfl
@[simp] theorem setSpare_cap : (s.setSpare p x).cap = s.cap := rfl
@[simp] theorem setSpare_latch : (s.setSpare p x).latch = s.latch := rfl
@[simp] theorem setSpare_turn : (s.setSpare p x).turn = s.turn := rfl
@[simp] theorem setSpare_log : (s.setSpare p x).log = s.log := rfl
@[simp] theorem setSpare_phys : (s.setSpare p x).phys = s.phys := rfl
@[simp] theorem setSpare_coreMap : (s.setSpare p x).coreMap = s.coreMap := rfl
@[simp] theorem setSpare_pcache : (s.setSpare p x).pcache = s.pcache := rfl
@[simp] theorem setSpare_nextCmd : (s.setSpare p x).nextCmd = s.nextCmd := rfl
@[simp] theorem setSpare_mc : (s.setSpare p x).mc = s.mc := rfl
@[simp] theorem setSpare_host : (s.setSpare p x).host = s.host := rfl
@[simp] theorem setSpare_flt : (s.setSpare p x).flt = s.flt := rfl
@[simp] theorem setSpare_start : (s.setSpare p x).start = s.start := rfl
@[simp] theorem setSpare_flash : (s.setSpare p x).flash = s.flash := rfl
@[simp] theorem setSpare_sill : (s.setSpare p x).sill = { s.sill with spares := s.sill.spares.put p x } := rfl
@[simp] theorem setSpare_ports : (s.setSpare p x).ports = s.ports := rfl
@[simp] theorem setSpare_msg : (s.setSpare p x).msg = s.msg := rfl
@[simp] theorem setSpare_rings : (s.setSpare p x).rings = s.rings := rfl
@[simp] theorem setSpare_pools : (s.setSpare p x).pools = s.pools := rfl
@[simp] theorem setSpare_reds : (s.setSpare p x).reds = s.reds := rfl
@[simp] theorem setSpare_groups : (s.setSpare p x).groups = s.groups := rfl
@[simp] theorem setSpare_shut : (s.setSpare p x).shut = s.shut := rfl
@[simp] theorem setSpare_seq : (s.setSpare p x).seq = s.seq := rfl
@[simp] theorem setSpare_pre : (s.setSpare p x).pre = s.pre := rfl
end setSpare

section setFlt
variable (s : State) (x : FltSt)
@[simp] theorem setFlt_pending : (s.setFlt x).pending = s.pending := rfl
@[simp] theorem setFlt_cycles : (s.setFlt x).cycles = s.cycles := rfl
@[simp] theorem setFlt_now4 : (s.setFlt x).now4 = s.now4 := rfl
@[simp] theorem setFlt_drawn : (s.setFlt x).drawn = s.drawn := rfl
@[simp] theorem setFlt_out : (s.setFlt x).out = s.out := rfl
@[simp] theorem setFlt_mem : (s.setFlt x).mem = s.mem := rfl
@[simp] theorem setFlt_poison : (s.setFlt x).poison = s.poison := rfl
@[simp] theorem setFlt_regs : (s.setFlt x).regs = s.regs := rfl
@[simp] theorem setFlt_cap : (s.setFlt x).cap = s.cap := rfl
@[simp] theorem setFlt_latch : (s.setFlt x).latch = s.latch := rfl
@[simp] theorem setFlt_turn : (s.setFlt x).turn = s.turn := rfl
@[simp] theorem setFlt_log : (s.setFlt x).log = s.log := rfl
@[simp] theorem setFlt_phys : (s.setFlt x).phys = s.phys := rfl
@[simp] theorem setFlt_coreMap : (s.setFlt x).coreMap = s.coreMap := rfl
@[simp] theorem setFlt_pcache : (s.setFlt x).pcache = s.pcache := rfl
@[simp] theorem setFlt_nextCmd : (s.setFlt x).nextCmd = s.nextCmd := rfl
@[simp] theorem setFlt_mc : (s.setFlt x).mc = s.mc := rfl
@[simp] theorem setFlt_host : (s.setFlt x).host = s.host := rfl
@[simp] theorem setFlt_flt : (s.setFlt x).flt = x := rfl
@[simp] theorem setFlt_start : (s.setFlt x).start = s.start := rfl
@[simp] theorem setFlt_flash : (s.setFlt x).flash = s.flash := rfl
@[simp] theorem setFlt_sill : (s.setFlt x).sill = s.sill := rfl
@[simp] theorem setFlt_ports : (s.setFlt x).ports = s.ports := rfl
@[simp] theorem setFlt_msg : (s.setFlt x).msg = s.msg := rfl
@[simp] theorem setFlt_rings : (s.setFlt x).rings = s.rings := rfl
@[simp] theorem setFlt_pools : (s.setFlt x).pools = s.pools := rfl
@[simp] theorem setFlt_reds : (s.setFlt x).reds = s.reds := rfl
@[simp] theorem setFlt_groups : (s.setFlt x).groups = s.groups := rfl
@[simp] theorem setFlt_shut : (s.setFlt x).shut = s.shut := rfl
@[simp] theorem setFlt_seq : (s.setFlt x).seq = s.seq := rfl
@[simp] theorem setFlt_pre : (s.setFlt x).pre = s.pre := rfl
end setFlt

section setMsg
variable (s : State) (m : MsgSt)
@[simp] theorem setMsg_pending : (s.setMsg m).pending = s.pending := rfl
@[simp] theorem setMsg_cycles : (s.setMsg m).cycles = s.cycles := rfl
@[simp] theorem setMsg_now4 : (s.setMsg m).now4 = s.now4 := rfl
@[simp] theorem setMsg_drawn : (s.setMsg m).drawn = s.drawn := rfl
@[simp] theorem setMsg_out : (s.setMsg m).out = s.out := rfl
@[simp] theorem setMsg_mem : (s.setMsg m).mem = s.mem := rfl
@[simp] theorem setMsg_poison : (s.setMsg m).poison = s.poison := rfl
@[simp] theorem setMsg_regs : (s.setMsg m).regs = s.regs := rfl
@[simp] theorem setMsg_cap : (s.setMsg m).cap = s.cap := rfl
@[simp] theorem setMsg_latch : (s.setMsg m).latch = s.latch := rfl
@[simp] theorem setMsg_turn : (s.setMsg m).turn = s.turn := rfl
@[simp] theorem setMsg_log : (s.setMsg m).log = s.log := rfl
@[simp] theorem setMsg_phys : (s.setMsg m).phys = s.phys := rfl
@[simp] theorem setMsg_coreMap : (s.setMsg m).coreMap = s.coreMap := rfl
@[simp] theorem setMsg_pcache : (s.setMsg m).pcache = s.pcache := rfl
@[simp] theorem setMsg_nextCmd : (s.setMsg m).nextCmd = s.nextCmd := rfl
@[simp] theorem setMsg_mc : (s.setMsg m).mc = s.mc := rfl
@[simp] theorem setMsg_host : (s.setMsg m).host = s.host := rfl
@[simp] theorem setMsg_flt : (s.setMsg m).flt = s.flt := rfl
@[simp] theorem setMsg_start : (s.setMsg m).start = s.start := rfl
@[simp] theorem setMsg_flash : (s.setMsg m).flash = s.flash := rfl
@[simp] theorem setMsg_sill : (s.setMsg m).sill = s.sill := rfl
@[simp] theorem setMsg_ports : (s.setMsg m).ports = s.ports := rfl
@[simp] theorem setMsg_msg : (s.setMsg m).msg = m := rfl
@[simp] theorem setMsg_rings : (s.setMsg m).rings = s.rings := rfl
@[simp] theorem setMsg_pools : (s.setMsg m).pools = s.pools := rfl
@[simp] theorem setMsg_reds : (s.setMsg m).reds = s.reds := rfl
@[simp] theorem setMsg_groups : (s.setMsg m).groups = s.groups := rfl
@[simp] theorem setMsg_shut : (s.setMsg m).shut = s.shut := rfl
@[simp] theorem setMsg_seq : (s.setMsg m).seq = s.seq := rfl
@[simp] theorem setMsg_pre : (s.setMsg m).pre = s.pre := rfl
end setMsg

section setPort
variable (s : State) (p : Nat) (x : Port)
@[simp] theorem setPort_pending : (s.setPort p x).pending = s.pending := rfl
@[simp] theorem setPort_cycles : (s.setPort p x).cycles = s.cycles := rfl
@[simp] theorem setPort_now4 : (s.setPort p x).now4 = s.now4 := rfl
@[simp] theorem setPort_drawn : (s.setPort p x).drawn = s.drawn := rfl
@[simp] theorem setPort_out : (s.setPort p x).out = s.out := rfl
@[simp] theorem setPort_mem : (s.setPort p x).mem = s.mem := rfl
@[simp] theorem setPort_poison : (s.setPort p x).poison = s.poison := rfl
@[simp] theorem setPort_regs : (s.setPort p x).regs = s.regs := rfl
@[simp] theorem setPort_cap : (s.setPort p x).cap = s.cap := rfl
@[simp] theorem setPort_latch : (s.setPort p x).latch = s.latch := rfl
@[simp] theorem setPort_turn : (s.setPort p x).turn = s.turn := rfl
@[simp] theorem setPort_log : (s.setPort p x).log = s.log := rfl
@[simp] theorem setPort_phys : (s.setPort p x).phys = s.phys := rfl
@[simp] theorem setPort_coreMap : (s.setPort p x).coreMap = s.coreMap := rfl
@[simp] theorem setPort_pcache : (s.setPort p x).pcache = s.pcache := rfl
@[simp] theorem setPort_nextCmd : (s.setPort p x).nextCmd = s.nextCmd := rfl
@[simp] theorem setPort_mc : (s.setPort p x).mc = s.mc := rfl
@[simp] theorem setPort_host : (s.setPort p x).host = s.host := rfl
@[simp] theorem setPort_flt : (s.setPort p x).flt = s.flt := rfl
@[simp] theorem setPort_start : (s.setPort p x).start = s.start := rfl
@[simp] theorem setPort_flash : (s.setPort p x).flash = s.flash := rfl
@[simp] theorem setPort_sill : (s.setPort p x).sill = s.sill := rfl
@[simp] theorem setPort_ports : (s.setPort p x).ports = s.ports.put p x := rfl
@[simp] theorem setPort_msg : (s.setPort p x).msg = s.msg := rfl
@[simp] theorem setPort_rings : (s.setPort p x).rings = s.rings := rfl
@[simp] theorem setPort_pools : (s.setPort p x).pools = s.pools := rfl
@[simp] theorem setPort_reds : (s.setPort p x).reds = s.reds := rfl
@[simp] theorem setPort_groups : (s.setPort p x).groups = s.groups := rfl
@[simp] theorem setPort_shut : (s.setPort p x).shut = s.shut := rfl
@[simp] theorem setPort_seq : (s.setPort p x).seq = s.seq := rfl
@[simp] theorem setPort_pre : (s.setPort p x).pre = s.pre := rfl
end setPort

section setPool
variable (s : State) (p : Nat) (x : PoolSt)
@[simp] theorem setPool_pending : (s.setPool p x).pending = s.pending := rfl
@[simp] theorem setPool_cycles : (s.setPool p x).cycles = s.cycles := rfl
@[simp] theorem setPool_now4 : (s.setPool p x).now4 = s.now4 := rfl
@[simp] theorem setPool_drawn : (s.setPool p x).drawn = s.drawn := rfl
@[simp] theorem setPool_out : (s.setPool p x).out = s.out := rfl
@[simp] theorem setPool_mem : (s.setPool p x).mem = s.mem := rfl
@[simp] theorem setPool_poison : (s.setPool p x).poison = s.poison := rfl
@[simp] theorem setPool_regs : (s.setPool p x).regs = s.regs := rfl
@[simp] theorem setPool_cap : (s.setPool p x).cap = s.cap := rfl
@[simp] theorem setPool_latch : (s.setPool p x).latch = s.latch := rfl
@[simp] theorem setPool_turn : (s.setPool p x).turn = s.turn := rfl
@[simp] theorem setPool_log : (s.setPool p x).log = s.log := rfl
@[simp] theorem setPool_phys : (s.setPool p x).phys = s.phys := rfl
@[simp] theorem setPool_coreMap : (s.setPool p x).coreMap = s.coreMap := rfl
@[simp] theorem setPool_pcache : (s.setPool p x).pcache = s.pcache := rfl
@[simp] theorem setPool_nextCmd : (s.setPool p x).nextCmd = s.nextCmd := rfl
@[simp] theorem setPool_mc : (s.setPool p x).mc = s.mc := rfl
@[simp] theorem setPool_host : (s.setPool p x).host = s.host := rfl
@[simp] theorem setPool_flt : (s.setPool p x).flt = s.flt := rfl
@[simp] theorem setPool_start : (s.setPool p x).start = s.start := rfl
@[simp] theorem setPool_flash : (s.setPool p x).flash = s.flash := rfl
@[simp] theorem setPool_sill : (s.setPool p x).sill = s.sill := rfl
@[simp] theorem setPool_ports : (s.setPool p x).ports = s.ports := rfl
@[simp] theorem setPool_msg : (s.setPool p x).msg = s.msg := rfl
@[simp] theorem setPool_rings : (s.setPool p x).rings = s.rings := rfl
@[simp] theorem setPool_pools : (s.setPool p x).pools = s.pools.put p x := rfl
@[simp] theorem setPool_reds : (s.setPool p x).reds = s.reds := rfl
@[simp] theorem setPool_groups : (s.setPool p x).groups = s.groups := rfl
@[simp] theorem setPool_shut : (s.setPool p x).shut = s.shut := rfl
@[simp] theorem setPool_seq : (s.setPool p x).seq = s.seq := rfl
@[simp] theorem setPool_pre : (s.setPool p x).pre = s.pre := rfl
end setPool

section setRing
variable (s : State) (r : Nat) (x : RingSt)
@[simp] theorem setRing_pending : (s.setRing r x).pending = s.pending := rfl
@[simp] theorem setRing_cycles : (s.setRing r x).cycles = s.cycles := rfl
@[simp] theorem setRing_now4 : (s.setRing r x).now4 = s.now4 := rfl
@[simp] theorem setRing_drawn : (s.setRing r x).drawn = s.drawn := rfl
@[simp] theorem setRing_out : (s.setRing r x).out = s.out := rfl
@[simp] theorem setRing_mem : (s.setRing r x).mem = s.mem := rfl
@[simp] theorem setRing_poison : (s.setRing r x).poison = s.poison := rfl
@[simp] theorem setRing_regs : (s.setRing r x).regs = s.regs := rfl
@[simp] theorem setRing_cap : (s.setRing r x).cap = s.cap := rfl
@[simp] theorem setRing_latch : (s.setRing r x).latch = s.latch := rfl
@[simp] theorem setRing_turn : (s.setRing r x).turn = s.turn := rfl
@[simp] theorem setRing_log : (s.setRing r x).log = s.log := rfl
@[simp] theorem setRing_phys : (s.setRing r x).phys = s.phys := rfl
@[simp] theorem setRing_coreMap : (s.setRing r x).coreMap = s.coreMap := rfl
@[simp] theorem setRing_pcache : (s.setRing r x).pcache = s.pcache := rfl
@[simp] theorem setRing_nextCmd : (s.setRing r x).nextCmd = s.nextCmd := rfl
@[simp] theorem setRing_mc : (s.setRing r x).mc = s.mc := rfl
@[simp] theorem setRing_host : (s.setRing r x).host = s.host := rfl
@[simp] theorem setRing_flt : (s.setRing r x).flt = s.flt := rfl
@[simp] theorem setRing_start : (s.setRing r x).start = s.start := rfl
@[simp] theorem setRing_flash : (s.setRing r x).flash = s.flash := rfl
@[simp] theorem setRing_sill : (s.setRing r x).sill = s.sill := rfl
@[simp] theorem setRing_ports : (s.setRing r x).ports = s.ports := rfl
@[simp] theorem setRing_msg : (s.setRing r x).msg = s.msg := rfl
@[simp] theorem setRing_rings : (s.setRing r x).rings = s.rings.put r x := rfl
@[simp] theorem setRing_pools : (s.setRing r x).pools = s.pools := rfl
@[simp] theorem setRing_reds : (s.setRing r x).reds = s.reds := rfl
@[simp] theorem setRing_groups : (s.setRing r x).groups = s.groups := rfl
@[simp] theorem setRing_shut : (s.setRing r x).shut = s.shut := rfl
@[simp] theorem setRing_seq : (s.setRing r x).seq = s.seq := rfl
@[simp] theorem setRing_pre : (s.setRing r x).pre = s.pre := rfl
end setRing

section setGroups
variable (s : State) (g : GroupSt)
@[simp] theorem setGroups_pending : (s.setGroups g).pending = s.pending := rfl
@[simp] theorem setGroups_cycles : (s.setGroups g).cycles = s.cycles := rfl
@[simp] theorem setGroups_now4 : (s.setGroups g).now4 = s.now4 := rfl
@[simp] theorem setGroups_drawn : (s.setGroups g).drawn = s.drawn := rfl
@[simp] theorem setGroups_out : (s.setGroups g).out = s.out := rfl
@[simp] theorem setGroups_mem : (s.setGroups g).mem = s.mem := rfl
@[simp] theorem setGroups_poison : (s.setGroups g).poison = s.poison := rfl
@[simp] theorem setGroups_regs : (s.setGroups g).regs = s.regs := rfl
@[simp] theorem setGroups_cap : (s.setGroups g).cap = s.cap := rfl
@[simp] theorem setGroups_latch : (s.setGroups g).latch = s.latch := rfl
@[simp] theorem setGroups_turn : (s.setGroups g).turn = s.turn := rfl
@[simp] theorem setGroups_log : (s.setGroups g).log = s.log := rfl
@[simp] theorem setGroups_phys : (s.setGroups g).phys = s.phys := rfl
@[simp] theorem setGroups_coreMap : (s.setGroups g).coreMap = s.coreMap := rfl
@[simp] theorem setGroups_pcache : (s.setGroups g).pcache = s.pcache := rfl
@[simp] theorem setGroups_nextCmd : (s.setGroups g).nextCmd = s.nextCmd := rfl
@[simp] theorem setGroups_mc : (s.setGroups g).mc = s.mc := rfl
@[simp] theorem setGroups_host : (s.setGroups g).host = s.host := rfl
@[simp] theorem setGroups_flt : (s.setGroups g).flt = s.flt := rfl
@[simp] theorem setGroups_start : (s.setGroups g).start = s.start := rfl
@[simp] theorem setGroups_flash : (s.setGroups g).flash = s.flash := rfl
@[simp] theorem setGroups_sill : (s.setGroups g).sill = s.sill := rfl
@[simp] theorem setGroups_ports : (s.setGroups g).ports = s.ports := rfl
@[simp] theorem setGroups_msg : (s.setGroups g).msg = s.msg := rfl
@[simp] theorem setGroups_rings : (s.setGroups g).rings = s.rings := rfl
@[simp] theorem setGroups_pools : (s.setGroups g).pools = s.pools := rfl
@[simp] theorem setGroups_reds : (s.setGroups g).reds = s.reds := rfl
@[simp] theorem setGroups_groups : (s.setGroups g).groups = g := rfl
@[simp] theorem setGroups_shut : (s.setGroups g).shut = s.shut := rfl
@[simp] theorem setGroups_seq : (s.setGroups g).seq = s.seq := rfl
@[simp] theorem setGroups_pre : (s.setGroups g).pre = s.pre := rfl
end setGroups

section setPre
variable (s : State) (l : Nat) (x : CorePre)
@[simp] theorem setPre_pending : (s.setPre l x).pending = s.pending := rfl
@[simp] theorem setPre_cycles : (s.setPre l x).cycles = s.cycles := rfl
@[simp] theorem setPre_now4 : (s.setPre l x).now4 = s.now4 := rfl
@[simp] theorem setPre_drawn : (s.setPre l x).drawn = s.drawn := rfl
@[simp] theorem setPre_out : (s.setPre l x).out = s.out := rfl
@[simp] theorem setPre_mem : (s.setPre l x).mem = s.mem := rfl
@[simp] theorem setPre_poison : (s.setPre l x).poison = s.poison := rfl
@[simp] theorem setPre_regs : (s.setPre l x).regs = s.regs := rfl
@[simp] theorem setPre_cap : (s.setPre l x).cap = s.cap := rfl
@[simp] theorem setPre_latch : (s.setPre l x).latch = s.latch := rfl
@[simp] theorem setPre_turn : (s.setPre l x).turn = s.turn := rfl
@[simp] theorem setPre_log : (s.setPre l x).log = s.log := rfl
@[simp] theorem setPre_phys : (s.setPre l x).phys = s.phys := rfl
@[simp] theorem setPre_coreMap : (s.setPre l x).coreMap = s.coreMap := rfl
@[simp] theorem setPre_pcache : (s.setPre l x).pcache = s.pcache := rfl
@[simp] theorem setPre_nextCmd : (s.setPre l x).nextCmd = s.nextCmd := rfl
@[simp] theorem setPre_mc : (s.setPre l x).mc = s.mc := rfl
@[simp] theorem setPre_host : (s.setPre l x).host = s.host := rfl
@[simp] theorem setPre_flt : (s.setPre l x).flt = s.flt := rfl
@[simp] theorem setPre_start : (s.setPre l x).start = s.start := rfl
@[simp] theorem setPre_flash : (s.setPre l x).flash = s.flash := rfl
@[simp] theorem setPre_sill : (s.setPre l x).sill = s.sill := rfl
@[simp] theorem setPre_ports : (s.setPre l x).ports = s.ports := rfl
@[simp] theorem setPre_msg : (s.setPre l x).msg = s.msg := rfl
@[simp] theorem setPre_rings : (s.setPre l x).rings = s.rings := rfl
@[simp] theorem setPre_pools : (s.setPre l x).pools = s.pools := rfl
@[simp] theorem setPre_reds : (s.setPre l x).reds = s.reds := rfl
@[simp] theorem setPre_groups : (s.setPre l x).groups = s.groups := rfl
@[simp] theorem setPre_shut : (s.setPre l x).shut = s.shut := rfl
@[simp] theorem setPre_seq : (s.setPre l x).seq = s.seq := rfl
@[simp] theorem setPre_pre : (s.setPre l x).pre = s.pre.put l x := rfl
end setPre

section setShut
variable (s : State) (i : Nat) (x : ShutSt)
@[simp] theorem setShut_pending : (s.setShut i x).pending = s.pending := rfl
@[simp] theorem setShut_cycles : (s.setShut i x).cycles = s.cycles := rfl
@[simp] theorem setShut_now4 : (s.setShut i x).now4 = s.now4 := rfl
@[simp] theorem setShut_drawn : (s.setShut i x).drawn = s.drawn := rfl
@[simp] theorem setShut_out : (s.setShut i x).out = s.out := rfl
@[simp] theorem setShut_mem : (s.setShut i x).mem = s.mem := rfl
@[simp] theorem setShut_poison : (s.setShut i x).poison = s.poison := rfl
@[simp] theorem setShut_regs : (s.setShut i x).regs = s.regs := rfl
@[simp] theorem setShut_cap : (s.setShut i x).cap = s.cap := rfl
@[simp] theorem setShut_latch : (s.setShut i x).latch = s.latch := rfl
@[simp] theorem setShut_turn : (s.setShut i x).turn = s.turn := rfl
@[simp] theorem setShut_log : (s.setShut i x).log = s.log := rfl
@[simp] theorem setShut_phys : (s.setShut i x).phys = s.phys := rfl
@[simp] theorem setShut_coreMap : (s.setShut i x).coreMap = s.coreMap := rfl
@[simp] theorem setShut_pcache : (s.setShut i x).pcache = s.pcache := rfl
@[simp] theorem setShut_nextCmd : (s.setShut i x).nextCmd = s.nextCmd := rfl
@[simp] theorem setShut_mc : (s.setShut i x).mc = s.mc := rfl
@[simp] theorem setShut_host : (s.setShut i x).host = s.host := rfl
@[simp] theorem setShut_flt : (s.setShut i x).flt = s.flt := rfl
@[simp] theorem setShut_start : (s.setShut i x).start = s.start := rfl
@[simp] theorem setShut_flash : (s.setShut i x).flash = s.flash := rfl
@[simp] theorem setShut_sill : (s.setShut i x).sill = s.sill := rfl
@[simp] theorem setShut_ports : (s.setShut i x).ports = s.ports := rfl
@[simp] theorem setShut_msg : (s.setShut i x).msg = s.msg := rfl
@[simp] theorem setShut_rings : (s.setShut i x).rings = s.rings := rfl
@[simp] theorem setShut_pools : (s.setShut i x).pools = s.pools := rfl
@[simp] theorem setShut_reds : (s.setShut i x).reds = s.reds := rfl
@[simp] theorem setShut_groups : (s.setShut i x).groups = s.groups := rfl
@[simp] theorem setShut_shut : (s.setShut i x).shut = s.shut.put i x := rfl
@[simp] theorem setShut_seq : (s.setShut i x).seq = s.seq := rfl
@[simp] theorem setShut_pre : (s.setShut i x).pre = s.pre := rfl
end setShut

section setStart
variable (s : State) (x : StartSt)
@[simp] theorem setStart_pending : (s.setStart x).pending = s.pending := rfl
@[simp] theorem setStart_cycles : (s.setStart x).cycles = s.cycles := rfl
@[simp] theorem setStart_now4 : (s.setStart x).now4 = s.now4 := rfl
@[simp] theorem setStart_drawn : (s.setStart x).drawn = s.drawn := rfl
@[simp] theorem setStart_out : (s.setStart x).out = s.out := rfl
@[simp] theorem setStart_mem : (s.setStart x).mem = s.mem := rfl
@[simp] theorem setStart_poison : (s.setStart x).poison = s.poison := rfl
@[simp] theorem setStart_regs : (s.setStart x).regs = s.regs := rfl
@[simp] theorem setStart_cap : (s.setStart x).cap = s.cap := rfl
@[simp] theorem setStart_latch : (s.setStart x).latch = s.latch := rfl
@[simp] theorem setStart_turn : (s.setStart x).turn = s.turn := rfl
@[simp] theorem setStart_log : (s.setStart x).log = s.log := rfl
@[simp] theorem setStart_phys : (s.setStart x).phys = s.phys := rfl
@[simp] theorem setStart_coreMap : (s.setStart x).coreMap = s.coreMap := rfl
@[simp] theorem setStart_pcache : (s.setStart x).pcache = s.pcache := rfl
@[simp] theorem setStart_nextCmd : (s.setStart x).nextCmd = s.nextCmd := rfl
@[simp] theorem setStart_mc : (s.setStart x).mc = s.mc := rfl
@[simp] theorem setStart_host : (s.setStart x).host = s.host := rfl
@[simp] theorem setStart_flt : (s.setStart x).flt = s.flt := rfl
@[simp] theorem setStart_start : (s.setStart x).start = x := rfl
@[simp] theorem setStart_flash : (s.setStart x).flash = s.flash := rfl
@[simp] theorem setStart_sill : (s.setStart x).sill = s.sill := rfl
@[simp] theorem setStart_ports : (s.setStart x).ports = s.ports := rfl
@[simp] theorem setStart_msg : (s.setStart x).msg = s.msg := rfl
@[simp] theorem setStart_rings : (s.setStart x).rings = s.rings := rfl
@[simp] theorem setStart_pools : (s.setStart x).pools = s.pools := rfl
@[simp] theorem setStart_reds : (s.setStart x).reds = s.reds := rfl
@[simp] theorem setStart_groups : (s.setStart x).groups = s.groups := rfl
@[simp] theorem setStart_shut : (s.setStart x).shut = s.shut := rfl
@[simp] theorem setStart_seq : (s.setStart x).seq = s.seq := rfl
@[simp] theorem setStart_pre : (s.setStart x).pre = s.pre := rfl
end setStart

section setFlash
variable (s : State) (x : FlashSt)
@[simp] theorem setFlash_pending : (s.setFlash x).pending = s.pending := rfl
@[simp] theorem setFlash_cycles : (s.setFlash x).cycles = s.cycles := rfl
@[simp] theorem setFlash_now4 : (s.setFlash x).now4 = s.now4 := rfl
@[simp] theorem setFlash_drawn : (s.setFlash x).drawn = s.drawn := rfl
@[simp] theorem setFlash_out : (s.setFlash x).out = s.out := rfl
@[simp] theorem setFlash_mem : (s.setFlash x).mem = s.mem := rfl
@[simp] theorem setFlash_poison : (s.setFlash x).poison = s.poison := rfl
@[simp] theorem setFlash_regs : (s.setFlash x).regs = s.regs := rfl
@[simp] theorem setFlash_cap : (s.setFlash x).cap = s.cap := rfl
@[simp] theorem setFlash_latch : (s.setFlash x).latch = s.latch := rfl
@[simp] theorem setFlash_turn : (s.setFlash x).turn = s.turn := rfl
@[simp] theorem setFlash_log : (s.setFlash x).log = s.log := rfl
@[simp] theorem setFlash_phys : (s.setFlash x).phys = s.phys := rfl
@[simp] theorem setFlash_coreMap : (s.setFlash x).coreMap = s.coreMap := rfl
@[simp] theorem setFlash_pcache : (s.setFlash x).pcache = s.pcache := rfl
@[simp] theorem setFlash_nextCmd : (s.setFlash x).nextCmd = s.nextCmd := rfl
@[simp] theorem setFlash_mc : (s.setFlash x).mc = s.mc := rfl
@[simp] theorem setFlash_host : (s.setFlash x).host = s.host := rfl
@[simp] theorem setFlash_flt : (s.setFlash x).flt = s.flt := rfl
@[simp] theorem setFlash_start : (s.setFlash x).start = s.start := rfl
@[simp] theorem setFlash_flash : (s.setFlash x).flash = x := rfl
@[simp] theorem setFlash_sill : (s.setFlash x).sill = s.sill := rfl
@[simp] theorem setFlash_ports : (s.setFlash x).ports = s.ports := rfl
@[simp] theorem setFlash_msg : (s.setFlash x).msg = s.msg := rfl
@[simp] theorem setFlash_rings : (s.setFlash x).rings = s.rings := rfl
@[simp] theorem setFlash_pools : (s.setFlash x).pools = s.pools := rfl
@[simp] theorem setFlash_reds : (s.setFlash x).reds = s.reds := rfl
@[simp] theorem setFlash_groups : (s.setFlash x).groups = s.groups := rfl
@[simp] theorem setFlash_shut : (s.setFlash x).shut = s.shut := rfl
@[simp] theorem setFlash_seq : (s.setFlash x).seq = s.seq := rfl
@[simp] theorem setFlash_pre : (s.setFlash x).pre = s.pre := rfl
end setFlash

section setDb
variable (s : State) (d : Option DbPend)
@[simp] theorem setDb_pending : (s.setDb d).pending = s.pending := rfl
@[simp] theorem setDb_cycles : (s.setDb d).cycles = s.cycles := rfl
@[simp] theorem setDb_now4 : (s.setDb d).now4 = s.now4 := rfl
@[simp] theorem setDb_drawn : (s.setDb d).drawn = s.drawn := rfl
@[simp] theorem setDb_out : (s.setDb d).out = s.out := rfl
@[simp] theorem setDb_mem : (s.setDb d).mem = s.mem := rfl
@[simp] theorem setDb_poison : (s.setDb d).poison = s.poison := rfl
@[simp] theorem setDb_regs : (s.setDb d).regs = s.regs := rfl
@[simp] theorem setDb_cap : (s.setDb d).cap = s.cap := rfl
@[simp] theorem setDb_latch : (s.setDb d).latch = { s.latch with db := d } := rfl
@[simp] theorem setDb_turn : (s.setDb d).turn = s.turn := rfl
@[simp] theorem setDb_log : (s.setDb d).log = s.log := rfl
@[simp] theorem setDb_phys : (s.setDb d).phys = s.phys := rfl
@[simp] theorem setDb_coreMap : (s.setDb d).coreMap = s.coreMap := rfl
@[simp] theorem setDb_pcache : (s.setDb d).pcache = s.pcache := rfl
@[simp] theorem setDb_nextCmd : (s.setDb d).nextCmd = s.nextCmd := rfl
@[simp] theorem setDb_mc : (s.setDb d).mc = s.mc := rfl
@[simp] theorem setDb_host : (s.setDb d).host = s.host := rfl
@[simp] theorem setDb_flt : (s.setDb d).flt = s.flt := rfl
@[simp] theorem setDb_start : (s.setDb d).start = s.start := rfl
@[simp] theorem setDb_flash : (s.setDb d).flash = s.flash := rfl
@[simp] theorem setDb_sill : (s.setDb d).sill = s.sill := rfl
@[simp] theorem setDb_ports : (s.setDb d).ports = s.ports := rfl
@[simp] theorem setDb_msg : (s.setDb d).msg = s.msg := rfl
@[simp] theorem setDb_rings : (s.setDb d).rings = s.rings := rfl
@[simp] theorem setDb_pools : (s.setDb d).pools = s.pools := rfl
@[simp] theorem setDb_reds : (s.setDb d).reds = s.reds := rfl
@[simp] theorem setDb_groups : (s.setDb d).groups = s.groups := rfl
@[simp] theorem setDb_shut : (s.setDb d).shut = s.shut := rfl
@[simp] theorem setDb_seq : (s.setDb d).seq = s.seq := rfl
@[simp] theorem setDb_pre : (s.setDb d).pre = s.pre := rfl
end setDb

/-! Reads after writes. -/

theorem reg_setReg (s : State) (a b : Nat) (v : Word) : (s.setReg a v).reg b = if b = a then v else s.reg b := by
  unfold reg setReg
  exact Tab.get_put _ _ a b v

@[simp] theorem reg_setReg_same (s : State) (a : Nat) (v : Word) : (s.setReg a v).reg a = v := by simp [reg_setReg]

theorem reg_setFld (s : State) (a b lo w v : Nat) :
    (s.setFld a lo w v).reg b = if b = a then setBits (s.reg a) lo w v else s.reg b := reg_setReg ..

theorem core_setCore (s : State) (l k : Nat) (c : LCore) : (s.setCore l c).core k = if k = l then c else s.core k := by
  unfold core setCore
  exact Tab.get_put _ _ l k c

@[simp] theorem core_setCore_same (s : State) (l : Nat) (c : LCore) : (s.setCore l c).core l = c := by simp [core_setCore]

theorem core_setThread (s : State) (l t k : Nat) (x : Thread) :
    (s.setThread l t x).core k = if k = l then { s.core l with threads := (s.core l).threads.put t x } else s.core k :=
  core_setCore ..

theorem thread_setThread (s : State) (l t k u : Nat) (x : Thread) :
    (s.setThread l t x).thread k u = if k = l ∧ u = t then x else s.thread k u := by
  unfold thread
  rw [core_setThread]
  by_cases h : k = l
  · subst h
    simp only [if_true, true_and]
    exact Tab.get_put _ _ t u x
  · simp [h]

@[simp] theorem thread_setThread_same (s : State) (l t : Nat) (x : Thread) : (s.setThread l t x).thread l t = x := by
  simp [thread_setThread]

theorem phy_setPhy (s : State) (i j : Nat) (p : Phys) : (s.setPhy i p).phy j = if j = i then p else s.phy j := by
  unfold phy setPhy
  exact Tab.get_put _ _ i j p

@[simp] theorem phy_setPhy_same (s : State) (i : Nat) (p : Phys) : (s.setPhy i p).phy i = p := by simp [phy_setPhy]

theorem queue_setQueue (s : State) (q r : Nat) (v : Queue) : (s.setQueue q v).queue r = if r = q then v else s.queue r := by
  unfold queue setQueue
  exact Tab.get_put _ _ q r v

theorem port_setPort (s : State) (p q : Nat) (x : Port) : (s.setPort p x).port q = if q = p then x else s.port q := by
  unfold port setPort
  exact Tab.get_put _ _ p q x

end Sys2Proof.Machine.State
end

