-- ==== Sys2Proof/Laws/Record.lean ====
section
/-!
SUPPORT. Laws/Record.lean: little-endian bytes and the fields of records: what a field reads after a write of a field.
-/
namespace Sys2Proof

@[simp] theorem length_toBytes (n v : Nat) : (toBytes n v).length = n := by
  induction n generalizing v with
  | zero => rfl
  | succ n ih => simp [toBytes, ih]

theorem ofBytes_toBytes (n v : Nat) : ofBytes (toBytes n v) = v % 256 ^ n := by
  induction n generalizing v with
  | zero => simp [toBytes, ofBytes, Nat.mod_one]
  | succ n ih =>
    simp only [toBytes, ofBytes, ih, BitVec.toNat_ofNat]
    have e : (256 : Nat) ^ (n + 1) = 256 * 256 ^ n := by rw [Nat.pow_succ, Nat.mul_comm]
    rw [e, Nat.mod_mul]

theorem ofBytes_lt (bs : List Byte) : ofBytes bs < 256 ^ bs.length := by
  induction bs with
  | nil => simp [ofBytes]
  | cons b r ih =>
    have := b.isLt
    simp only [ofBytes, List.length_cons, Nat.pow_succ]
    omega

theorem toNat_setBits_field {n : Nat} (x : BitVec n) (lo w v : Nat) (h : lo + w ≤ n) :
    (setBits x lo w v).toNat / 2 ^ lo % 2 ^ w = v % 2 ^ w := by
  apply Nat.eq_of_testBit_eq
  intro i
  simp only [Nat.testBit_mod_two_pow, Nat.testBit_div_two_pow]
  by_cases hi : i < w
  · have e : (setBits x lo w v).toNat.testBit (i + lo) = (setBits x lo w v).getLsbD (i + lo) := rfl
    have hl : i + lo < n := by omega
    have h1 : ((2 ^ w - 1) * 2 ^ lo).testBit (i + lo) = true := by
      rw [Nat.testBit_mul_two_pow, Nat.testBit_two_pow_sub_one]; simp [hi]
    have h2 : (v % 2 ^ w * 2 ^ lo).testBit (i + lo) = v.testBit i := by
      rw [Nat.testBit_mul_two_pow, Nat.testBit_mod_two_pow]; simp [hi]
    rw [e]
    simp only [setBits, BitVec.getLsbD_or, BitVec.getLsbD_and, BitVec.getLsbD_not, BitVec.getLsbD_ofNat, hl, h1, h2]
    simp
  · simp [hi]

theorem toNat_setBits_other {n : Nat} (x : BitVec n) (lo w v lo' w' : Nat) (h : lo' + w' ≤ lo ∨ lo + w ≤ lo') :
    (setBits x lo w v).toNat / 2 ^ lo' % 2 ^ w' = x.toNat / 2 ^ lo' % 2 ^ w' := by
  apply Nat.eq_of_testBit_eq
  intro i
  simp only [Nat.testBit_mod_two_pow, Nat.testBit_div_two_pow]
  by_cases hi : i < w'
  · have e : (setBits x lo w v).toNat.testBit (i + lo') = (setBits x lo w v).getLsbD (i + lo') := rfl
    have e' : x.toNat.testBit (i + lo') = x.getLsbD (i + lo') := rfl
    have out : ¬ (lo ≤ i + lo' ∧ i + lo' - lo < w) := by omega
    have h1 : ((2 ^ w - 1) * 2 ^ lo).testBit (i + lo') = false := by
      rw [Nat.testBit_mul_two_pow, Nat.testBit_two_pow_sub_one]
      simp only [Bool.and_eq_false_iff, decide_eq_false_iff_not]; omega
    have h2 : (v % 2 ^ w * 2 ^ lo).testBit (i + lo') = false := by
      rw [Nat.testBit_mul_two_pow, Nat.testBit_mod_two_pow]
      by_cases c : lo ≤ i + lo'
      · have : ¬ i + lo' - lo < w := by omega
        simp [this]
      · simp [c]
    rw [e, e']
    simp only [setBits, BitVec.getLsbD_or, BitVec.getLsbD_and, BitVec.getLsbD_not, BitVec.getLsbD_ofNat, h1, h2]
    by_cases hl : i + lo' < n
    · simp [hl]
    · simp [hl, BitVec.getLsbD_of_ge x (i + lo') (by omega)]
  · simp [hi]

theorem bits_setBits_field {n : Nat} (x : BitVec n) (lo w v : Nat) (h : lo + w ≤ n) : bits (setBits x lo w v) lo w = v % 2 ^ w :=
  toNat_setBits_field x lo w v h

theorem bits_setBits_other {n : Nat} (x : BitVec n) (lo w v lo' w' : Nat) (h : lo' + w' ≤ lo ∨ lo + w ≤ lo') :
    bits (setBits x lo w v) lo' w' = bits x lo' w' := toNat_setBits_other x lo w v lo' w' h

namespace Machine

theorem memGets_memPuts (m : List Host.Cell) (a n : Nat) (bs : List Byte) (h : bs.length = n) : memGets (memPuts m a bs) a n = bs := by
  apply List.ext_getElem
  · simp [memGets, upTo, h]
  · intro i h1 h2
    simp only [memGets, upTo, List.getElem_map, List.getElem_range]
    rw [memGet_memPuts, if_pos (by omega)]
    have : a + i - a = i := by omega
    rw [this, List.getD_eq_getElem?_getD, List.getElem?_eq_getElem h2]
    rfl

theorem memGets_memPuts_far (m : List Host.Cell) (a b n : Nat) (bs : List Byte) (h : b + n ≤ a ∨ a + bs.length ≤ b) :
    memGets (memPuts m a bs) b n = memGets m b n := by
  unfold memGets upTo
  apply List.map_congr_left
  intro i hi
  have := List.mem_range.mp hi
  rw [memGet_memPuts, if_neg (by omega)]

namespace State

theorem peekN_pokeN (s : State) (a n v : Nat) : (s.pokeN a n v).peekN a n = v % 256 ^ n := by
  unfold peekN peek pokeN poke
  simp only
  rw [memGets_memPuts _ _ _ _ (by simp), ofBytes_toBytes]

theorem peekN_lt (s : State) (a n : Nat) : s.peekN a n < 256 ^ n := by
  unfold peekN
  have := ofBytes_lt (s.peek a n)
  simpa [peek, memGets, upTo] using this

/-- A field reads what was written to it. -/
theorem rec_setRec (s : State) (a lo w v : Nat) (h : lo + w ≤ 64) : (s.setRec a lo w v).rec_ a lo w = v % 2 ^ w := by
  unfold rec_ setRec
  have e : (setBits (BitVec.ofNat 64 (s.peekN a 8)) lo w v).toNat % 256 ^ 8 = (setBits (BitVec.ofNat 64 (s.peekN a 8)) lo w v).toNat :=
    Nat.mod_eq_of_lt (by have := (setBits (BitVec.ofNat 64 (s.peekN a 8)) lo w v).isLt; omega)
  rw [peekN_pokeN, e]
  exact toNat_setBits_field _ lo w v h

/-- A field of the same word that does not overlap keeps its value. -/
theorem rec_setRec_other (s : State) (a lo w v lo' w' : Nat) (h : lo' + w' ≤ lo ∨ lo + w ≤ lo') :
    (s.setRec a lo w v).rec_ a lo' w' = s.rec_ a lo' w' := by
  unfold rec_ setRec
  have hl := s.peekN_lt a 8
  have e : (setBits (BitVec.ofNat 64 (s.peekN a 8)) lo w v).toNat % 256 ^ 8 = (setBits (BitVec.ofNat 64 (s.peekN a 8)) lo w v).toNat :=
    Nat.mod_eq_of_lt (by have := (setBits (BitVec.ofNat 64 (s.peekN a 8)) lo w v).isLt; omega)
  have e2 : s.peekN a 8 % 2 ^ 64 = s.peekN a 8 := Nat.mod_eq_of_lt (by omega)
  rw [peekN_pokeN, e,
    toNat_setBits_other _ lo w v lo' w' h, BitVec.toNat_ofNat, e2]

/-- A field of a word elsewhere keeps its value. -/
theorem rec_setRec_far (s : State) (a b lo w v lo' w' : Nat) (h : b + 8 ≤ a ∨ a + 8 ≤ b) :
    (s.setRec a lo w v).rec_ b lo' w' = s.rec_ b lo' w' := by
  unfold rec_ setRec pokeN poke peekN peek
  simp only
  rw [memGets_memPuts_far _ _ _ _ _ (by simpa using h)]

/-- A field of a register reads what was written to it, and other fields and registers keep their values. -/
theorem fld_setFld (s : State) (r lo w v : Nat) (h : lo + w ≤ 32) : (s.setFld r lo w v).fld r lo w = v % 2 ^ w := by
  unfold fld
  rw [reg_setFld, if_pos rfl]
  exact bits_setBits_field _ lo w v h

theorem fld_setFld_other (s : State) (r lo w v lo' w' : Nat) (h : lo' + w' ≤ lo ∨ lo + w ≤ lo') :
    (s.setFld r lo w v).fld r lo' w' = s.fld r lo' w' := by
  unfold fld
  rw [reg_setFld, if_pos rfl]
  exact bits_setBits_other _ lo w v lo' w' h

theorem fld_setFld_far (s : State) (r r' lo w v lo' w' : Nat) (h : r' ≠ r) : (s.setFld r lo w v).fld r' lo' w' = s.fld r' lo' w' := by
  unfold fld
  rw [reg_setFld, if_neg h]

end State
end Machine
end Sys2Proof
end

