-- ==== Sys2Proof/Laws/Scalar.lean ====
section
/-!
SUPPORT. Laws/Scalar.lean: what the shared operations of the scalar instructions do: issue, the guard, a write of a register or a
predicate, an exception.
-/
namespace Sys2Proof.Machine
open Sys2Proof.Safety

/-- The thread after issue: it has counted the instruction. -/
def issuedThread (x : Thread) : Thread :=
  { x with issued := x.issued + 1, issuedRc := BitVec.ofNat 32 (satAdd 32 x.issuedRc.toNat 1) }

theorem issue_core (s : State) (l t k : Nat) : (s.issue l t).core k =
    if k = l then { s.core l with
      threads := (s.core l).threads.put t (issuedThread (s.thread l t))
      lastThread := Fin.ofNat 8 t } else s.core k := by
  unfold State.issue
  simp only [State.core_setCore, State.core_setThread]
  split
  · subst_vars; simp [issuedThread]
  · rfl

theorem issue_frame (s : State) (l t : Nat) : s.issue l t = { s with log := (s.issue l t).log } := rfl

theorem issue_thread (s : State) (l t k u : Nat) :
    (s.issue l t).thread k u = if k = l ∧ u = t then issuedThread (s.thread l t) else s.thread k u := by
  unfold State.thread
  rw [issue_core]
  by_cases h : k = l
  · subst h
    simp only [if_true, true_and, Tab.get_put]
    rfl
  · simp [h]

/-- What an instruction that runs does: it issues, and its own effect follows. -/
theorem scalar_runs (s : State) (l t : Nat) (g : Guard) (f : Thread → State → State) (h : runs s l t g) :
    s.scalar l t g f = f (issuedThread (s.thread l t)) (s.issue l t) := by
  obtain ⟨h1, h2, h3⟩ := h
  have e : (s.issue l t).thread l t = issuedThread (s.thread l t) := by simp [issue_thread]
  have e3 : (issuedThread (s.thread l t)).guard g = true := h3
  unfold State.scalar
  simp [h1, h2, e, e3]

/-- What an instruction does whose guard is false: it issues and goes past itself. -/
theorem scalar_guard_false (s : State) (l t : Nat) (g : Guard) (f : Thread → State → State) (h1 : s.issues l t = true)
    (h2 : s.accessFault (s.thread l t).part.toNat (s.thread l t).pc.toNat 4 false = none)
    (h3 : ((s.thread l t).p g.pg.val != g.pn) = false) :
    s.scalar l t g f = (s.issue l t).setThread l t (issuedThread (s.thread l t)).next := by
  have e : (s.issue l t).thread l t = issuedThread (s.thread l t) := by simp [issue_thread]
  have e3 : (issuedThread (s.thread l t)).guard g = false := h3
  unfold State.scalar
  simp [h1, h2, e, e3]

/-- A write of the issuing thread alone touches nothing else. -/
theorem onlyThread_issue_setThread (s : State) (l t : Nat) (y : Thread) : onlyThread l t s ((s.issue l t).setThread l t y) := by
  refine ⟨rfl, ?_, ?_, ?_⟩
  · intro k hk
    rw [State.core_setThread, if_neg hk, issue_core, if_neg hk]
  · rw [State.core_setThread, if_pos rfl, issue_core, if_pos rfl]
  · intro m hm
    rw [State.thread_setThread, if_neg (by simp [hm]), issue_thread, if_neg (by simp [hm])]

theorem g_zero (x : Thread) : x.g 0 = 0 := by simp [Thread.g]

/-- Reading a register after a write of one (R199). -/
theorem g_setG (x : Thread) (i j : Nat) (v : Dword) : (x.setG i v).g j = if j = 0 then 0 else if j = i then v else x.g j := by
  unfold Thread.g Thread.setG
  by_cases hj : j = 0
  · simp [hj]
  · simp only [hj, if_false]
    by_cases hi : i = 0
    · subst hi; simp [hj]
    · simp only [hi, if_false, Tab.get_put]

theorem issued_count (x : Thread) : (issuedThread x).issuedRc.toNat = min (x.issuedRc.toNat + 1) (2 ^ 32 - 1) := by
  have := x.issuedRc.isLt
  simp only [issuedThread, satAdd, BitVec.toNat_ofNat]
  omega

/-- An instruction that writes GD alone. -/
theorem toG_gives (s : State) (l t : Nat) (g : Guard) (gd : Fin 32) (f : Thread → Dword) (h : runs s l t g) :
    givesG s (s.toG l t g gd f) l t gd (f (issuedThread (s.thread l t))) := by
  unfold State.toG
  rw [scalar_runs s l t g _ h]
  refine ⟨onlyThread_issue_setThread s l t _, ?_, ?_, ?_⟩
  · rw [State.thread_setThread_same]
    refine ⟨?_, ?_⟩
    · unfold Thread.setG; split <;> rfl
    · have := issued_count (s.thread l t)
      unfold Thread.setG; split <;> exact this
  · rw [State.thread_setThread_same]
    unfold Thread.setG; split <;> rfl
  · intro j
    rw [State.thread_setThread_same, g_setG]
    rfl

end Sys2Proof.Machine
end

