-- ==== Sys2Proof/WellFormed.lean ====
section
/-!
DEFINITION. WellFormed.lean: which commands the outside world can bring about. The operand types rule out most that
cannot; these checks rule out the rest. A meaning is given to every command, well-formed or not.
-/
namespace Sys2Proof

/-- The word of a vector instruction carries the opcode of its row (R173). -/
def opIs (ins : BitVec 32) (op : Nat) : Bool := bits ins 0 7 == op

/-- No entry of a list appears twice. -/
def distinct {α : Type} [BEq α] : List α → Bool
  | [] => true
  | x :: r => !r.contains x && distinct r

/-- A frame has 15 slots (R396), and a symbol of it is wrong or right, not wrong twice. -/
def frameOk (flits : List (BitVec 2048)) (errs : List (Fin 6 × Fin 544)) : Bool := flits.length == 15 && distinct errs

/-- A BAR2 write carries 1 to 512 bytes (R457, R463). -/
def payloadOk (n : Nat) : Bool := decide (1 ≤ n) && decide (n ≤ 512)

/-- Only a successful completion carries data. -/
def completionOk (status : CplStatus) (data : List Byte) : Bool := decide (status = .success) || data.isEmpty

/-- One threshold is set at most once in one command (R613). -/
def thresholdsOk (set : List (Fin 3 × Bool × BitVec 20)) : Bool := distinct (set.map (fun x => (x.1, x.2.1)))

/-- A start has nine steps at most (R568). -/
def attemptsOk (as : List Attempt) : Bool := as.all (fun a => decide (a.ms.length ≤ 9))

/-- Whether the outside world can bring the command about. -/
def Instr.wellFormed (i : Instr) : Bool :=
  match i with
  | .vnop _ ins => opIs ins 0x00
  | .vend _ ins => opIs ins 0x01
  | .vsetvl _ ins => opIs ins 0x02
  | .vpass _ ins => opIs ins 0x03
  | .vadd _ ins => opIs ins 0x08
  | .vsub _ ins => opIs ins 0x09
  | .vmul _ ins => opIs ins 0x0A
  | .vmax _ ins => opIs ins 0x0B
  | .vmin _ ins => opIs ins 0x0C
  | .vabs _ ins => opIs ins 0x0D
  | .vneg _ ins => opIs ins 0x0E
  | .vscl2 _ ins => opIs ins 0x0F
  | .vcmp _ ins => opIs ins 0x10
  | .vsel _ ins => opIs ins 0x11
  | .vcvt _ ins => opIs ins 0x12
  | .vand _ ins => opIs ins 0x13
  | .vor _ ins => opIs ins 0x14
  | .vxor _ ins => opIs ins 0x15
  | .vfma _ ins => opIs ins 0x18
  | .vdiv _ ins => opIs ins 0x19
  | .vsqrt _ ins => opIs ins 0x1A
  | .vrsq _ ins => opIs ins 0x1B
  | .vexp2 _ ins => opIs ins 0x20
  | .vred _ ins => opIs ins 0x28
  | .vtop8 _ ins => opIs ins 0x29
  | .vsum _ ins => opIs ins 0x2A
  | .vperm _ ins => opIs ins 0x30
  | .vrev _ ins => opIs ins 0x31
  | .vrot _ ins => opIs ins 0x32
  | .vzip _ ins => opIs ins 0x33
  | .vdrn _ ins => opIs ins 0x38
  | .vpop _ ins => opIs ins 0x39
  | .vld _ ins => opIs ins 0x3A
  | .vst _ ins => opIs ins 0x3B
  | .hbmRequestServe _ _ errs => distinct errs.symbols
  | .scrubRead errs => distinct errs
  | .frameReceive _ _ flits errs => frameOk flits errs
  | .bar2Write _ _ data => payloadOk data.length
  | .replayComplete _ _ dup orig => !(dup && orig)
  | .inputGood _ _ as => attemptsOk as
  | .modResetPulse as => attemptsOk as
  | .startStepTimeout as => attemptsOk as
  | .coldRetryDelay as => attemptsOk as
  | .warmRestartRequest _ _ as => attemptsOk as
  | .coldRestartRequest _ _ as => attemptsOk as
  | .recColdStart _ as => attemptsOk as
  | .setSensorThresholds _ _ set => thresholdsOk set
  | .hostDmaCompletion _ status data => completionOk status data
  | .tick .. | .spindleEnable .. | .spindleDisable .. | .roleWrite .. | .trnPeriodWrite .. | .turnRefEdge .. |
    .refEdgeTimeout .. | .markerMiss .. | .costExceeded .. | .cutover .. | .mainProgramStop .. | .fallbackOverrun .. |
    .turnProgramComplete .. | .descriptorRead .. | .commandStart .. | .commandRetire .. | .mma .. | .attb .. |
    .chain .. | .vop .. | .red .. | .xfer .. | .xferVerify .. | .gath .. | .scat .. | .yield .. | .turn .. |
    .tileStepStart .. | .tileStepComplete .. | .hatchOrphan .. | .redTimeout .. | .treeNodeCombine .. |
    .mxeInject .. | .add .. | .sub .. | .and .. | .or .. | .xor .. | .shl .. | .shr .. | .sar .. | .mul .. |
    .mulhu .. | .mulh .. | .divu .. | .remu .. | .div .. | .rem .. | .min .. | .max .. | .minu .. | .maxu .. |
    .clz .. | .popc .. | .ptog .. | .gtop .. | .addi .. | .andi .. | .ori .. | .xori .. | .shi .. | .lim .. |
    .lsh .. | .cmp .. | .cmpi .. | .plog .. | .ldb .. | .ldh .. | .ldw .. | .ldws .. | .ldd .. | .ldwx .. | .lddx .. |
    .stb .. | .sth .. | .stw .. | .std .. | .stwx .. | .stdx .. | .loadReturn .. | .amoSwap .. | .amoAdd .. |
    .amoAnd .. | .amoOr .. | .amoXor .. | .amoMaxu .. | .amoMinu .. | .amoMax .. | .amoMin .. | .amoCas .. |
    .fenceP .. | .fenceM .. | .fenceT .. | .fenceI .. | .brl .. | .jr .. | .tcmd .. | .twait .. | .rdsum .. |
    .rdflg .. | .mfs .. | .pause .. | .wtick .. | .trap .. | .halt .. | .threadRun .. | .threadStop .. | .codeInv .. |
    .codeInvDone .. | .ringArm .. | .ringAbort .. | .hopStart .. | .ringStall .. | .ring .. | .credit .. |
    .poolEnable .. | .kick .. | .lookup .. | .attach .. | .insert .. | .release .. | .pin .. | .unpin .. |
    .prefetch .. | .flush .. | .spillComplete .. | .returnComplete .. | .groupEnable .. | .groupDisable .. |
    .groupArm .. | .groupDisarm .. | .groupAbort .. | .shardStall .. | .nextEpochHoldExpiry .. |
    .lineSpareTrained .. | .regionEnable .. | .linkEnable .. | .linkDisable .. | .retrain .. | .forceDown .. |
    .calibrationComplete .. | .partnerLock .. | .trainingComplete .. | .heartbeatMiss .. | .retryTimeout .. |
    .holdoffExpiry .. | .laneLockLoss .. | .laneErrorWindow .. | .msgEnable .. | .windowEnable .. |
    .transitForward .. | .write .. | .gather .. | .tree .. | .done .. | .unreach .. | .confirm .. | .retract .. |
    .read .. | .reassemblyStall .. | .tombstoneExpiry .. | .msgTimeout .. | .provExpired .. | .sqTail .. |
    .cqHead .. | .queueEnable .. | .queueDisable .. | .coalesceTimeout .. | .msixVectorUnmask .. |
    .msixRouteWrite .. | .hostPortReset .. | .functionLevelReset .. | .d3hotEntry .. | .perstN .. |
    .configurationRequest .. | .bar2Read .. | .bar2Atomic .. | .activate .. | .retire .. | .tokensWrite .. |
    .stepCoreAssign .. | .preemptSave .. | .saveComplete .. | .restore .. | .restoreComplete .. | .stepComplete .. |
    .sillCrossing .. | .replayStart .. | .duplicateCompare .. | .sillWait .. | .sillStep .. | .ready .. | .commit .. |
    .stepChildTimeout .. | .stepCommitTimeout .. | .resolve .. | .rollingTestStart .. | .rollingTestComplete .. |
    .testRequest .. | .shutterEnable .. | .shutterDisable .. | .begin_ .. | .capture .. | .send_ .. | .serve .. |
    .stream .. | .pwrEnLow .. | .inputUndervoltage .. | .loadJoineryImage .. | .loadConfigurationRecord .. |
    .mbxGo .. | .mbxAck .. | .report .. | .repair .. | .stageImage .. | .getCert .. | .getVersion .. |
    .getCapabilities .. | .negotiateAlgorithms .. | .getDigests .. | .getCertificate .. | .challenge .. |
    .getMeasurements .. | .spdmUnsupported .. | .setEndpointId .. | .entdaa .. | .setdasa .. | .getTid .. |
    .setTid .. | .getPldmVersion .. | .getPldmTypes .. | .getPldmCommands .. | .getPdr .. | .getPdrRepositoryInfo .. |
    .getSensorReading .. | .getStateSensorReadings .. | .getSensorThresholds .. | .setEventReceiver .. |
    .pldmFirmwareUpdate .. | .pldmUnsupported .. | .sensorUpdate .. | .dutyStep .. | .faultCopyToFlash .. |
    .fltClearPair .. | .latchStrobe .. | .latchTickArm .. | .deadboltValueWrite .. | .deadboltLate .. |
    .trnPeriodPair .. | .memPartOwnPair .. | .memRangePair .. | .hqOwnPair .. | .lchOwnPair .. | .secLockPair .. |
    .registerWrite .. | .rcRead .. | .loCaptureRead .. | .refclockLoss .. | .refclockReturn .. | .frameTransmit .. |
    .pauseExpiry .. | .storeReachesPanelCache .. | .completionTimeout .. | .mctpTypeUnsupported .. => true

end Sys2Proof
end

