-- ==== Sys2Proof/Tests/Slice0.lean ====
section
/-!
SUPPORT. Tests/Slice0.lean: what the checks of WellFormed refuse, small steps whose results come from the spec, and for each statement
with hypotheses a state and operands that meet them (`test_witness_…`).
-/
namespace Sys2Proof.Tests
open Sys2Proof.Machine Sys2Proof.Safety

-- One theorem after another: each holds a thread of its own while an earlier one is still being checked.
set_option Elab.async false

/-! ### WellFormed and decoding -/

/-- One command that cannot come about for each check. -/
theorem test_wellFormed_refuses :
    [Instr.vadd 0 0x09, .hbmRequestServe 0 0 { symbols := [1, 1] }, .replayComplete 0 none true true, .scrubRead [3, 3], .frameReceive 0 0 [] [], .bar2Write 0 0 [],
      .inputGood true true [{ ms := List.replicate 10 0 }], .setSensorThresholds 0 1 [(0, true, 5), (0, true, 6)],
      .hostDmaCompletion 0 .abort [1]].all (fun i => !i.wellFormed) = true := by decide +kernel

/-- A neighbour of each that can. -/
theorem test_wellFormed_accepts :
    [Instr.vadd 0 0x08, .hbmRequestServe 0 0 { symbols := [1, 2] }, .replayComplete 0 none false true, .scrubRead [3], .frameReceive 0 0 (List.replicate 15 0) [], .bar2Write 0 0 [none],
      .inputGood true true [{ ms := List.replicate 9 0 }], .setSensorThresholds 0 1 [(0, true, 5), (0, false, 6)],
      .hostDmaCompletion 0 .abort [], .tick].all Instr.wellFormed = true := by decide +kernel

/-- The table gives no row bits, so no word spells a command. -/
theorem test_no_word_decodes : decodeTableWord 32 0 = none := rfl

/-! ### Builders -/

/-- Partition 0 is assigned to H0; it owns the first 4 GiB of HBM. -/
def owned : Tab Word := [(0x300400, 5), (0x301000, 0x10101010)]

/-- The guard of predicate 0, which holds. -/
def yes : Guard := { pg := 0, pn := false }

/-- Thread 0 of core 0 is READY, with these registers; the core has what `c` has beside it. -/
def thr (regs : Tab Dword) (c : LCore := {}) (x : Thread := {}) : State :=
  { regs := owned, log := [(0, { c with threads := [(0, { x with st := .ready, regs := regs })] })] }

/-- A field of the state after a command, where it has gone on. -/
def after {α : Type} (o : Host.Outcome State Fault Refusal) (f : State → α) : Option α :=
  match o with
  | .next u => some (f u)
  | _ => none

/-! ### Scalar instructions -/

theorem test_witness_IntegerInstructions : runs (thr [(1, 5), (2, 3)]) 0 0 yes
    ∧ (∀ imm ∈ [0x03F, 0x43F, 0x83F], (BitVec.ofNat 12 imm).toNat / 64 % 16 = 0) ∧ (0xFFFF : BitVec 17).toNat < 2 ^ 16 := by
  unfold runs; decide +kernel

/-- R212: a division by zero, the most negative number divided by −1, and a shift by 64. -/
theorem test_division_corners :
    after (exec (.divu 0 0 yes 3 1 2) (thr [(1, 5)])) (fun u => (u.thread 0 0).g 3) = some (BitVec.allOnes 64)
    ∧ after (exec (.rem 0 0 yes 3 1 2) (thr [(1, 2 ^ 63), (2, -1)])) (fun u => (u.thread 0 0).g 3) = some 0
    ∧ after (exec (.shl 0 0 yes 3 1 2) (thr [(1, 5), (2, 64)])) (fun u => (u.thread 0 0).g 3) = some 5 := by decide +kernel

/-- Every condition is met by the numbers of the state; guard p1 is false. -/
theorem test_witness_FalseAndTruePredicates : runs (thr [(1, 5), (2, 3)]) 0 0 yes
    ∧ (thr []).issues 0 0 = true ∧ (thr []).accessFault 0 0 4 false = none ∧ scalarOf (.add 0 0 { pg := 1, pn := false } 1 2 3) = some (0, 0, { pg := 1, pn := false })
    ∧ (((thr []).thread 0 0).p 1 != false) = false := by unfold runs; decide +kernel

theorem test_witness_IllegalAndTrap : runs (thr []) 0 0 yes ∧ decide ((0xC00 : BitVec 12).toNat / 1024 = 3) = true
    ∧ 2 ^ 16 ≤ (0x10000 : BitVec 17).toNat ∧ 16 ≤ (16 : BitVec 7).toNat ∧ (4 : BitVec 13).toNat > 3 ∧ (1 : BitVec 7) ≠ 0
    ∧ (4 : BitVec 12).toNat ≥ 4 ∧ (2 : BitVec 12).toNat ≥ 2 ∧ (8 : BitVec 12).toNat ≥ 8 ∧ (3 : BitVec 12).toNat % 4 = 3
    ∧ (7 : BitVec 12).toNat > 6 := by unfold runs; decide +kernel

/-- R223: TRAP 0x123 leaves cause 6 and its code. -/
theorem test_trap_code : after (exec (.trap 0 0 yes 0x123) (thr [])) (fun u => ((u.thread 0 0).excCause, (u.thread 0 0).excCode))
    = some (6, 0x123) := by decide +kernel

/-- A line of the data cache whose bytes are 0, but for byte 8, which is 0xFF. -/
def oneLine : BitVec 512 := BitVec.ofNat 512 (0xFF * 2 ^ 64)

/-- The line at 0x1000 is in the data cache; g1 points at its byte 8. -/
def cached : State := thr [(1, 0x1008), (2, 0x55)] { dcache := [(0x40, oneLine)] }

theorem test_witness_CachedAccess : runs cached 0 0 yes ∧ (cached.core 0).dcache.find? (0x1008 / 64) = some oneLine
    ∧ 0x1008 < hbmEnd ∧ cached.rangeOwner 0x1008 = some (cached.thread 0 0).part.toNat
    ∧ 0x1008 / 64 ∉ (cached.core 0).dBad ∧ runs (thr [(1, 0x1008)]) 0 0 yes ∧ ((thr [(1, 0x1008)]).core 0).dcache.find? (0x1008 / 64) = none
    ∧ ∀ w ∈ [1, 2, 4, 8], 0x1008 % w = 0 := by unfold runs; decide +kernel

/-- R211: LDWS extends the sign. -/
theorem test_ldb_ldws : after (exec (.ldb 0 0 yes 3 1 0) cached) (fun u => (u.thread 0 0).g 3) = some 0xFF
    ∧ after (exec (.ldws 0 0 yes 3 1 0) (thr [(1, 0x1008)] { dcache := [(0x40, BitVec.ofNat 512 (0x80000000 * 2 ^ 64))] }))
        (fun u => (u.thread 0 0).g 3) = some 0xFFFFFFFF80000000 := by decide +kernel

theorem test_witness_UncachedRequest : runs cached 0 0 yes ∧ 0x1008 < hbmEnd
    ∧ cached.rangeOwner 0x1008 = some (cached.thread 0 0).part.toNat ∧ ∀ w ∈ [4, 8], 0x1008 % w = 0 := by unfold runs; decide +kernel

/-- Beyond the scale area, between HBM and the record areas, in a range of nobody, and misaligned. -/
theorem test_witness_AccessExceptions : runs (thr []) 0 0 yes ∧ 0xF000080200 ≥ 0xF000080200
    ∧ hbmEnd ≤ 0xC000000000 ∧ 0xC000000000 < 0xF000000000 ∧ 2 ^ 32 < hbmEnd
    ∧ (thr []).rangeOwner (2 ^ 32) ≠ some ((thr []).thread 0 0).part.toNat
    ∧ (thr []).rangeOwner 0x1001 = some ((thr []).thread 0 0).part.toNat ∧ ∀ w ∈ [2, 4, 8], 0x1001 % w ≠ 0 := by unfold runs; decide +kernel

theorem test_witness_FencesAndBranches : runs (thr [(1, 0x2003)]) 0 0 yes ∧ ((thr []).thread 0 0).stores = []
    ∧ (thr []).hasLive 0 0 = false ∧ ∀ l ∈ (thr []).pcache, (0 : Fin 128).val ∉ l.2.dirty := by unfold runs; simp [thr]; decide +kernel

/-- R211: JR clears the two low bits of its target, BRL counts instructions. -/
theorem test_branches : after (exec (.jr 0 0 yes 31 1 0) (thr [(1, 0x2003)])) (fun u => ((u.thread 0 0).pc, (u.thread 0 0).g 31)) = some (0x2000, 4)
    ∧ after (exec (.brl 0 0 yes 0 2) (thr [])) (fun u => (u.thread 0 0).pc) = some 8 := by decide +kernel

/-- Slot 1 of thread 0 is pending, slot 0 is not. -/
def summaries : State := thr [] { sums := [(0, 7)], sumPend := [(9, 1)] }

theorem test_witness_SummaryRead : runs summaries 0 0 yes ∧ 8 ≤ (8 : BitVec 12).toNat
    ∧ summaries.slotPending 0 0 = false ∧ (7 : BitVec 12).toNat ≥ 4 ∧ (1 : BitVec 12).toNat < 4
    ∧ summaries.slotPending 0 1 = true := by unfold runs; decide +kernel

/-- Tag 0 of thread 0 has retired, tag 1 has not; the descriptor line at 0x1000 is in the data cache. -/
def tags : State := thr [(1, 1), (2, 0x200), (3, 0x1000)]
  { tags := [(0, { id := 1, ctx := .thread 0, discard := false, word := some 0x42 }), (1, { id := 2, ctx := .thread 0, discard := false }),
      (7, { id := 3, ctx := .queue 4 0, discard := false })],
    dcache := [(0x40, 0x0C)] }

theorem test_witness_CommandTags : runs tags 0 0 yes ∧ (1 : BitVec 12).toNat < 2
    ∧ ((tags.core 0).tags.find? 0).map (·.word) = some (some 0x42) ∧ ((tags.core 0).tags.find? 1).map (·.word) = some none
    ∧ ((tags.core 0).tags.find? 1).map (·.ctx) = some (.thread 0) ∧ ((tags.core 0).tags.find? 0).map (·.ctx) = some (.thread 0)
    ∧ ((tags.core 0).tags.find? 7).map (·.ctx) = some (.queue 4 0) ∧ (7 : Nat) / 512 = (0 : Fin 8).val ∧ 0x1000 / 64 ∉ (tags.core 0).dBad
    ∧ (0x200 : Dword).toNat / 512 ≠ (0 : Fin 8).val ∧ (tags.core 0).tags.find? 5 = none
    ∧ 0x1000 < hbmEnd ∧ tags.rangeOwner 0x1000 = some (tags.thread 0 0).part.toNat ∧ (tags.core 0).dcache.find? (0x1000 / 64) = some 0x0C
    ∧ (tags.core 0).queue.length < 64 ∧ tags.closed = false ∧ (tags.core 0).tags.find? 2 = none
    ∧ ∀ k, k < 2 → (tags.core 0).tags.find? k ≠ none := by unfold runs; decide +kernel

/-- R218: TWAIT of a retired tag returns its word and frees it; R216: the lowest free tag. -/
theorem test_tags : after (exec (.twait 0 0 yes 4 5 0) tags) (fun u => ((u.thread 0 0).g 4, (u.core 0).tags.length)) = some (0x42, 2)
    ∧ after (exec (.tcmd 0 0 yes 4 3 0) tags) (fun u => (u.thread 0 0).g 4) = some 2 := by decide +kernel

theorem test_witness_StateWordsAndWaits : runs (thr [(1, 7)]) 0 0 yes := by unfold runs; decide +kernel

/-- Thread 0 of core 0 in the state `st`; `w` is what it waits for. -/
def waits (st : ThrState) (w : Wait) : State := { regs := owned, log := [(0, { threads := [(0, { st := st, wait := w })] })] }

theorem test_witness_ThreadControls :
    let s := waits .off .none
    let d := waits .wait (.data (.loadUncached 8 1) 0x1000 none)
    let p := { waits .wait .pause with regs := (0x1000008, 1) :: owned }
    (∀ x ∈ [s, d, p], x.logOf (0 : Fin 136).val = some (0 : Fin 128).val ∧ x.mayRun .joinery 0 0 = true ∧ x.hears .joinery = true)
      ∧ (s.thread 0 0).st ∈ [ThrState.off, .faulted, .halted] ∧ (s.thread 0 0).inAccess = false ∧ (d.thread 0 0).inAccess = true
      ∧ bit ((p).reg (coreWin 0 + 8)) 0 = true ∧ (p.thread 0 0).st = .wait ∧ (p.thread 0 0).wait = .pause := by decide +kernel

/-- A line of the panel cache at 0x1000, and thread 0 of core 0. -/
def panel (x : Thread) : State := { regs := owned, pcache := [(0x40, { data := oneLine })], log := [(0, { threads := [(0, x)] })] }

theorem test_witness_StoresAndAccessesComplete :
    let s (o : MemOp) (r : Option (Nat × Bool)) := waits .wait (.data o 0x1008 r)
    let l := panel { st := .wait, wait := .data (.loadCached 8 false 1) 0x1008 none }
    let st : PendStore := { addr := 0x1038, data := [1, 2, 3, 4, 5, 6, 7, 8] }
    let w := panel { st := .ready, stores := [st] }
    0x1008 < hbmEnd
      ∧ (∀ x ∈ [s (.loadUncached 8 1) (some (5, false)), s (.amo .add 8 1 2 3) (some (5, true)), s (.storeUncached 8 5) (some (0, false)), l],
          (x.thread 0 0).st = .wait ∧ (x.thread 0 0).stopPending = false)
      ∧ (l.thread 0 0).wait = .data (.loadCached 8 false 1) 0x1008 none ∧ l.pcache.find? (pkey (l.under 0 / 17) (0x1008 / 64)) = some { data := oneLine }
      ∧ (∀ x ∈ (l.core 0).threads, x.2.stores = [])
      ∧ (w.thread 0 0).stores = [st] ∧ (w.thread 0 0).st = .ready ∧ w.present 0 = true ∧ st.addr % 64 + st.data.length ≤ 64
      ∧ w.pcache.find? (pkey (w.under 0 / 17) (st.addr / 64)) = some { data := oneLine } ∧ w.tiesBefore 0 0 st = []
      ∧ ({ data := oneLine } : PLine).poison = false ∧ ({ data := oneLine } : PLine).ups = 0 := by decide +kernel

/-- The only request of pseudo-channel 16 is at 0x1000. -/
def request (o : MemOp) : State :=
  { regs := owned, log := [(0, { threads := [(0, { st := .wait, wait := .data o 0x1000 none })] })], mem := [(0x1000, 5)],
    mc := { reqs := [(16, [{ addr := 0x1000, op := o, core := 0, thread := 0, part := 0, at_ := 0, entered := 0 }])] } }

theorem test_witness_ControllerServes :
    (∀ o ∈ [MemOp.loadUncached 8 1, .storeUncached 4 7, .amo .max 8 1 2 3],
      let s := request o
      let r : HbmReq := { addr := 0x1000, op := o, core := 0, thread := 0, part := 0, at_ := 0, entered := 0 }
      s.mc.reqs.get [] (16 : Fin 1024) = [r] ∧ (16 : Fin 1024).val = (hbmMap r.addr).pc ∧ (0 : Fin 32).val = (hbmMap r.addr).bank
        ∧ s.mc.training = [] ∧ s.regulated r.part = false ∧ r.addr < hbmEnd ∧ r.addr % 4 = 0 ∧ r.addr % 8 = 0
        ∧ s.rangeOwner r.addr = some r.part ∧ s.poisoned (r.addr / 64) = false ∧ s.pcState 16 ≠ 3
        ∧ (s.thread r.core r.thread).wait = .data o r.addr none)
      ∧ ∀ w ∈ [4, 8], 2 ^ (8 * w) - 1 < 2 ^ (8 * w) := by decide +kernel

/-- R214: MAX compares as signed numbers: 5 beats -1. -/
theorem test_amo_max : after (exec (.hbmRequestServe 16 0 {}) (request (.amo .max 8 1 (2 ^ 64 - 1) 0))) (fun u => u.peekN 0x1000 8) = some 5 := by
  decide +kernel

theorem test_witness_ScrubTrainingRegions :
    let s (blk : Nat) (pos : Word) : State := { regs := [(Reg.memScrub, 1), (Reg.memScrubPos, pos)], mc := { scrubBlk := blk, training := [3] } }
    let m (base pages : Nat) : State := (State.pokeN { regs := owned } 0xF000200008 6 base).pokeN 0xF000200010 4 pages
    (∀ x ∈ [s 0 0, s 3 0, s 3 (BitVec.ofNat 32 (0xC000000000 / 256 - 1))], bit (x.reg Reg.memScrub) 0 = true)
      ∧ ((s 3 (BitVec.ofNat 32 (0xC000000000 / 256 - 1))).reg Reg.memScrubPos).toNat + 1 = 0xC000000000 / 256
      ∧ (s 0 0).mc.scrubBlk < 3 ∧ (s 0 0).pcState (hbmMap 0).pc ≤ 1 ∧ (s 0 0).mc.lineErr.get 0 (64 * (hbmMap 0).pc + lineOf 0) < 15
      ∧ (3 : Fin 1024).val ∈ (s 0 0).mc.training
      ∧ (m 0x1000 2).writesFor .joinery 0 = true ∧ (m 0x1000 2).rec_ 0xF000200000 0 1 = 0
      ∧ (m 0x1000 2).inPart 0 ((m 0x1000 2).rec_ 0xF000200008 0 48) (4096 * (m 0x1000 2).rec_ 0xF000200010 0 32) = true
      ∧ (m 0x1000 2).rec_ 0xF000200010 0 32 = 2 ∧ (m 0x1000 0).rec_ 0xF000200010 0 32 = 0
      ∧ (m (2 ^ 32) 1).inPart 0 ((m (2 ^ 32) 1).rec_ 0xF000200008 0 48) 4096 = false := by decide +kernel

/-! ### The machine and its turns -/

/-- The Spindle is in `t` and TRN_CTL is `ctl`. -/
def spindle (t : TurnSt) (ctl : Word := 1) (more : Tab Word := []) (l : LatchSt := {}) : State :=
  { regs := (Reg.trnCtl, ctl) :: more, turn := t, latch := l, start := { input := true, ready := true } }

theorem test_witness_StepRunsFront : ({ pending := [.tick, .refEdgeTimeout] } : State).pending = .tick :: [.refEdgeTimeout] := rfl

theorem test_witness_ResetState :
    State.reset.pending = [] ∧ State.reset.start.input = false ∧ ({ spindle {} with start := { dieOff := true } }).start.dieOff = true
      ∧ (spindle {}).pending = [] ∧ (spindle {}).start.input = true ∧ (spindle {}).start.dieOff = false ∧ (spindle {}).sill.leaving = [] := by
  decide +kernel

/-- The power is on, thread 0 of core 0 is READY, and core 0's instruction cache has what is given. -/
def idle (icache : Tab (BitVec 512) := []) : State := { thr [] { icache := icache } with start := { input := true } }

/-- The first word of the line is ADDI g1, g0, 5 under p0: OP 1, GD 1, GA 0, IMM 5; R210 has the places of the fields. -/
theorem test_witness_IdleCycle :
    let w : BitVec 512 := BitVec.ofNat 512 (1 * 2 ^ 22 + 1 * 2 ^ 17 + 5)
    let none_ : BitVec 512 := BitVec.ofNat 512 (0x3E * 2 ^ 22)
    ({} : State).start.input = false ∧ (∀ ic ∈ [[], [(0, w)], [(0, none_)]],
        let s := idle ic
        s.pending = [] ∧ s.flt.due = [] ∧ s.start.input = true ∧ s.start.dieOff = false ∧ s.sill.leaving = [] ∧ s.sill.steps = []
          ∧ s.log.map (·.1) = [(0 : Fin 128).val] ∧ s.issues 0 0 = true ∧ (∀ k ∈ [1, 2, 3, 4, 5, 6, 7], s.issues 0 k = false)
          ∧ s.accessFault (s.thread 0 0).part.toNat (s.thread 0 0).pc.toNat 4 false = none)
      ∧ (((idle []).thread 0 0).pc.toNat = 0 ∧ ((idle []).core 0).icache.find? 0 = none ∧ ((idle [(0, w)]).core 0).icache.find? 0 = some w)
      ∧ decodeScalar 0 0 (BitVec.ofNat 32 (lineVal w 0 4)) = .instr (.addi 0 0 yes 1 0 5)
      ∧ decodeScalar 0 0 (BitVec.ofNat 32 (lineVal none_ 0 4)) = .reservedOp := by decide +kernel

/-- A module with power on whose threads are all OFF. -/
theorem test_witness_IdleCycle_off : ∀ l t, ({ start := { input := true } } : State).issues l t = false := by
  intro l t; simp [State.issues, State.thread, State.core, Tab.get, Tab.find?]

/-- The premise of what Kept says of one step: a state in canonical form that has a next one. -/
theorem test_witness_MemoryStaysCanonical : memCanonical ({ mem := [(0, 1), (7, 2)], pending := [.refEdgeTimeout] } : State)
    ∧ step ({ mem := [(0, 1), (7, 2)], pending := [.refEdgeTimeout] } : State) = .next { mem := [(0, 1), (7, 2)] } := by
  exact ⟨by unfold memCanonical; decide +kernel, by rfl⟩

theorem test_witness_TicksAndReference :
    let go := spindle { running := true, num := 5 }
    let first := spindle {}
    let ref (l : Lock) (n : Nat) := spindle { running := true, lock := l, inRun := n, lastFour := [1, 2, 3, 4] } 0x11
    let f := spindle { running := true, role := .follower, stepped := true }
    let off := spindle {} 0x10
    go.canTick = true ∧ go.turn.running = true
      ∧ first.canTick = true ∧ first.turn.running = false ∧ first.turn.role ≠ .follower ∧ first.sill.leaving = [] ∧ first.latch.pend = []
      ∧ (∀ x ∈ [ref .seeking 0, ref .seeking 3, ref .locked 0, ref .holdover 0], x.refLock = true ∧ (x.reg Reg.trnPeriod).toNat = 1000000)
      ∧ (max 1000500 1000000 - min 1000500 1000000) * 1000000 ≤ 500 * 1000000
      ∧ (max 1000501 1000000 - min 1000501 1000000) * 1000000 > 500 * 1000000
      ∧ (ref .locked 0).turn.lock = .locked ∧ (ref .seeking 0).turn.lock ≠ .locked
      ∧ f.spindleOn = true ∧ f.turn.role = .follower ∧ f.turn.stepped = true
      ∧ off.refMeasures = true ∧ off.refLock = false ∧ (spindle {} 1).refMeasures = false := by decide +kernel

theorem test_witness_SpindleRegisters :
    let off := spindle {} 0
    let on (l : LatchSt) := spindle { running := true } 1 [] l
    (∀ x ∈ [off, on {}], x.mayTrn .joinery = true) ∧ off.spindleOn = false ∧ (10000 : Word).toNat ≥ 10000 ∧ (9999 : Word).toNat < 10000
      ∧ (on {}).spindleOn = true ∧ (on {}).latch.db = none := by decide +kernel

theorem test_witness_SpindleRegisters_pair (v : Word) :
    let p : DbPend := { reg := .trnPeriod, val := v, by_ := .joinery }
    (spindle { running := true } 1 [] { db := some p }).latch.db = some p := rfl

/-- R23: the shortest period that a stopped Spindle takes; R29: an edge 501 millionths off ends the lock. -/
theorem test_spindle :
    after (exec (.trnPeriodWrite .joinery 10000) (spindle {} 0)) (fun u => u.reg Reg.trnPeriod) = some 10000
    ∧ after (exec (.trnPeriodWrite .joinery 9999) (spindle {} 0)) (fun u => (u.reg Reg.trnPeriod).toNat) = some 1000000
    ∧ after (exec (.turnRefEdge 1000501) (spindle { running := true, lock := .locked } 0x11)) (fun u => u.turn.lock) = some .holdover := by
  decide +kernel

/-- A program of step 0 (or of `src`) in phase `ph`. -/
def program (ph : Phase) (used : Nat := 0) (cores : List Nat := [0]) (fb : Bool := false) (src : ProgSrc := .step 0) : Prog :=
  { src := src, cls := 1, target := 10, mainCost := 2, fb := fb, fbCost := 1, mainAddr := 0x1000, fbAddr := 0x2000, thread := 0,
    cores := cores, got := !cores.isEmpty, phase := ph, used := used }

/-- Turn 10: program 0 is `p`, and program 3 is one of class 2. -/
def doorstop (p : Prog) (log : Tab LCore := []) : State :=
  { regs := owned, log := log, turn := { running := true, num := 10, progs := [(0, p), (3, { p with cls := 2, src := .turn 0 9 })] } }

/-- Core 0 runs a command of program 0 whose stage is busy. -/
def busyCore : Tab LCore :=
  [(0, { running := [{ cmd := { id := 1, desc := 0, tag := 0, ctx := .thread 0, part := 0, discard := false, prog := some 0 }, stages := [{ busy := true }] }] })]

theorem test_witness_Doorstop :
    let run (p : Prog) := doorstop p busyCore
    (∀ x ∈ [program .main 512, program .main 513, program .waiting 0 []],
        (run x).prog? 0 = some x ∧ Tab.rising (run x).turn.progs = true)
      ∧ (run (program .main 512)).progDone 0 (program .main 512) = false ∧ (run (program .main 513)).progDone 0 (program .main 513) = false
      ∧ (run (program .waiting)).progDone 0 (program .waiting) = false
      ∧ 64 * 513 > 256 * 2 * (64 + (program .main 513).tol) ∧ 64 * 512 ≤ 256 * 2 * (64 + (program .main 512).tol)
      ∧ (program .main).cls = (1 : Fin 16) ∧ (program .main).target = (run (program .main)).turnNo ∧ (program .main).cause = 0
      ∧ (let p := program .stopping 0 [0, 1] true
         (doorstop p).prog? 0 = some p ∧ (doorstop p).atBoundary 0 p = true ∧ p.fb = true ∧ p.got = true ∧ p.reset = false
           ∧ (run p).atBoundary 0 p = false)
      ∧ (let p := { program .main 0 [0] true with reset := true }
         (doorstop p).atBoundary 0 p = true)
      ∧ (doorstop (program .stopping)).atBoundary 0 (program .stopping) = true ∧ (program .stopping).fb = false
      ∧ (let p := { program .fallback with fbUsed := 257 }
         let late := { program .fallback with target := 11 }
         let x := doorstop p [(0, { threads := [(0, { st := .ready })] })]
         x.progDone 0 p = false ∧ x.atBoundary 0 p = true ∧ 64 * p.fbUsed > 256 * p.fbCost * (64 + p.fbTol) ∧ late.target ≠ x.turnNo)
      ∧ (let p := program .main 0 [1] false (.turn 0 3)
         (doorstop p [(1, { threads := [(0, { st := .halted })] })]).progDone 0 p = true)
      ∧ (let p := program .main 0 [1]
         let x := doorstop p [(1, { threads := [(0, { st := .halted })] })]
         x.progDone 0 p = true ∧ Tab.rising x.turn.progs = true) := by decide +kernel

/-- In the state above only program 0 is of step 0. -/
theorem test_witness_Doorstop_unique (p : Prog) : ∀ j y, (doorstop p).prog? j = some y → y.src = .step 0 → j = 0 := by
  intro j y h hy
  simp only [State.prog?, doorstop, Sys2Proof.Tab.find?] at h
  split at h
  · simp_all
  · split at h
    · cases h; simp at hy
    · simp at h

/-- Entry 0 of the sequence table is in state `st`; its program, at the addresses 0x4000 and 0x8000, is valid. -/
def seqEntry (st tokens done : Nat) (t : TurnSt := { running := true, num := 10, valid := true, capNow := [(1, 100)] }) : State :=
  let s : State :=
    { regs := (0x10110, 1) :: (0x100000, 0x60000) :: owned, turn := t, start := { ready := true },
      host := { queues := [(0, { st := .active })], owners := [(0, 1)] } }
  let s := (((s.setRec 0xF001000000 0 3 st).setRec 0xF001000000 8 4 1).setRec 0xF001000000 32 32 tokens).setRec 0xF001000008 0 32 done
  let s := (s.setRec 0xF001000010 0 48 0x4000).setRec 0xF001000018 0 48 0x8000
  (s.setRec 0xF001800000 53 1 1).setRec 0xF001800010 0 32 7

/-- A program of step 0 that asks for `n` cores. -/
def listed (ph : Phase) (n : Nat) (src : ProgSrc := .step 0) : Prog := { program ph 0 [] false src with nCores := n }

theorem test_witness_Sequences :
    let s (st : Nat) := seqEntry st 5 3
    let x := { seqEntry 0 5 3 with turn := { running := true, num := 10, progs := [(0, listed .waiting 1)] } }
    Requester.h0 ≠ .tumbler ∧ (s 0).hears .h0 = true ∧ (s 0).closed = false
      ∧ (s 0).activateCode .h0 0 = none ∧ (s 1).activateCode .h0 0 = some 0xB0
      ∧ (s 1).seqState 0 = 1 ∧ (s 3).seqState 0 = 3 ∧ (s 2).seqState 0 ≠ 1 ∧ (s 2).seqState 0 ≠ 3
      ∧ (s 0).writesFor (.host 0) ((s 0).seqPart 0) = true ∧ (s 1).seqState 0 ≤ 1 ∧ (s 1).seqDone 0 ≤ (3 : Word).toNat
      ∧ x.prog? 0 = some (listed .waiting 1) ∧ (listed .waiting 1).src = .step 0 ∧ (listed .waiting 1).target = x.turnNo
      ∧ (listed .waiting 1).cause = 0 ∧ (listed .waiting 1).phase = .waiting
      ∧ Tab.rising x.turn.progs = true ∧ (listed .waiting 1).nCores ≤ x.freeCores.length := by decide +kernel

/-- In a state with that program alone, it is the only one of step 0, and none waits before it. -/
theorem test_witness_Sequences_unique (s : State) (h : s.turn.progs = [(0, listed .waiting 1)]) :
    ∀ j y, s.prog? j = some y → (y.src = .step 0 → j = 0) ∧ (y.phase = .waiting → y.cause = 0
      ∧ ¬(y.nCores ≠ 0 ∧ (listed .waiting 1).nCores ≠ 0 ∧ y.target = (listed .waiting 1).target ∧ j < 0 ∧ y.nCores ≤ s.freeCores.length)) := by
  intro j y hj
  simp only [State.prog?, h, Sys2Proof.Tab.find?] at hj
  split at hj
  · rename_i e; cases hj; simp_all [listed, program]
  · simp at hj

/-! ### Queues and tensor commands -/

/-- A descriptor of these fields: byte offset, lowest bit, width, value. -/
def dsc (fs : List (Nat × Nat × Nat × Nat)) : BitVec 512 := fs.foldl (fun d (off, lo, w, v) => setBits d (8 * off + lo) w v) 0

/-- Queue 0 is in state `st`, of port `own - 1`; its HQ_CTL is `ctl`. -/
def queue0 (st : QState) (ctl : Word) (x : Queue := {}) (more : Tab Word := []) (own : Nat := 1) (t : TurnSt := {}) : State :=
  { regs := owned ++ [(0x100000, ctl), (0x100004, 0xFFF)] ++ more, turn := t, log := [(0, {})],
    host := { queues := [(0, { x with st := st }), (5, { st := .active })], owners := [(0, own)] }, start := { ready := true } }

theorem test_witness_QueueCommands :
    let s := queue0 .active 0x60001 { unrel := 3, cqHead := 60, uncovered := 2 } [(0x100018, 0x05000801)]
    let off := queue0 .off 0x60000 {} [(0x100008, 0), (0x10000C, 0)]
    let odd := queue0 .off 0x60000 {} [(0x100008, 32)]
    s.hears (Requester.ofPort (0 : Fin 2)) = true ∧ s.qOwner 0 = (0 : Fin 2) + 1 ∧ (s.queue 0).st = .active ∧ s.qOwner 0 ≠ (1 : Fin 2) + 1
      ∧ bits (63 : Word) 0 16 < s.qSize 0 ∧ s.qSize 0 ≤ bits (64 : Word) 0 16
      ∧ (bits (63 : Word) 0 16 + s.qSize 0 - (s.queue 0).cqHead) % s.qSize 0 ≤ (s.queue 0).unrel
      ∧ (∀ x ∈ [s, off, odd], x.ownsQueue .joinery 0 = true)
      ∧ (off.queue 0).st = .off ∧ 6 ≤ bits (0x60001 : Word) 16 4 ∧ off.partValid 0 = true ∧ off.qOwner 0 = 1 ∧ off.partHost 0 = 1
      ∧ off.sqBase 0 % 64 = 0 ∧ off.cqBase 0 % 64 = 0 ∧ bits (0x60001 : Word) 1 1 = 0
      ∧ (odd.queue 0).st = .off ∧ odd.sqBase 0 % 64 ≠ 0
      ∧ 0 < (s.queue 0).uncovered ∧ bit (s.reg (hqBase 0 + 0x18)) 11 = true ∧ bits (s.reg (hqBase 0 + 0x18)) 24 8 ≠ 0
      ∧ s.qPort 0 = some 0
      ∧ s.seqIn 1 = [] ∧ (let e := seqEntry 1 5 3
         e.ownsQueue .joinery 0 = true ∧ (e.queue 0).st = .active ∧ e.seqIn 1 = [0] ∧ e.seqRptq 0 = 0 ∧ e.seqState 0 = 1) := by decide +kernel

/-- R471: the tail moves to 63 in a ring of 64 entries, and 64 is outside. -/
theorem test_sqTail :
    after (exec (.sqTail 0 0 63) (queue0 .active 0x60001)) (fun u => ((u.queue 0).st, (u.queue 0).sqTail)) = some (.active, 63)
    ∧ after (exec (.sqTail 0 0 64) (queue0 .active 0x60001)) (fun u => ((u.queue 0).st, (u.queue 0).cause)) = some (.error, 2) := by decide +kernel

/-- A TURN of turn `t` and main cost `cost`. -/
def turnDesc (t cost : Nat) : BitVec 512 := dsc [(0x10, 0, 16, t), (0x14, 0, 32, cost), (0x20, 0, 128, 1), (0x30, 0, 48, 0x1000)]

theorem test_witness_RingsAndTurns :
    let ring := queue0 .active 0x60001 { sqTail := 5 } [(0x100008, 0x1000), (0x10000C, 1)]
    let s := queue0 .active 0x60011 {} [(0x10110, 1)] 1 { running := true, num := 10, valid := true, capNow := [(1, 100)] }
    let s' := s.setQueue 0 { s.queue 0 with unrec := (s.queue 0).unrec + 1 }
    ring.pickQueue (0 : Fin 3) = some 0 ∧ ring.qLoc 0 = 0
      ∧ (∀ cost ∈ [7, 101], let d : Desc := setBits (turnDesc 11 cost) 0 8 0x0C
          s'.check d (s'.chkCtx (Desc.core d) (.queue 0 3) (s.qPart 0) (some (s.qClass 0))) = none ∧ Desc.irq d = false)
      ∧ s.admissionCode (s.qClass 0) (s.resolveTurn 11) 7 false 0 = none
      ∧ s.admissionCode (s.qClass 0) (s.resolveTurn 11) 101 false 0 = some 0x40
      ∧ s.qPort 0 = some 0 ∧ ¬ ((s.queue 0).st = .error ∧ (s.queue 0).cause = 4) := by decide +kernel

theorem test_witness_RingsAndTurns_unfetched (j : Nat) : ((queue0 .active 0x60001 { sqTail := 5 } []).queue j).fetched = [] := by
  simp only [State.queue, queue0, Sys2Proof.Tab.get, Sys2Proof.Tab.find?]
  split
  · rfl
  · split <;> rfl

/-- A command of thread 2 of the core. -/
def cmd (id : Nat) (d : BitVec 512) (tag : Nat := 0) (deps : List Nat := []) (stages : List (BitVec 512) := []) : Cmd :=
  { id := id, desc := d, tag := tag, ctx := .thread 2, part := 0, discard := false, deps := deps, stages := stages }

/-- Core 0 as given, with these scratchpad bytes and so on beside it. -/
def core0 (k : LCore) (p : Phys := {}) : State := { regs := owned, log := [(0, k)], phys := [(0, p)], nextCmd := 20, turn := { num := 10 } }

/-- One run of one stage. -/
def oneRun (d : BitVec 512) (x : StageRun := {}) : Run := { cmd := cmd 5 d, stages := [x] }

theorem test_witness_CommandLife :
    let x := cmd 5 (dsc [(0, 0, 8, 6)]) 0 [3]
    let s (st : List (Nat × Nat)) (q : List Cmd) := core0 { queue := q ++ [x], doneStatus := st }
    let go := s [(3, 0)] []
    let fail := s [(3, 0x20)] []
    let wait := s [] [cmd 3 (dsc [(0, 0, 8, 4)]) 7]
    let r (done : Bool) : Run := { oneRun (dsc [(0, 0, 8, 11)]) with done := done, sets := [(0, 5), (2, 1), (0, 8)] }
    let t (done : Bool) := core0 { running := [r done] }
    let q : Run := { r false with cmd := { (r false).cmd with ctx := .queue 4 0 } }
    let stopped := { core0 { running := [q] } with host := { queues := [(4, { st := .error, cause := 4 })] } }
    (∀ y ∈ [go, fail, wait], (y.core 0).queued 0 = some x ∧ y.runOf 0 x.id = none ∧ x.id < y.nextCmd)
      ∧ go.readiness 0 x = .go ∧ go.armHolds x = false ∧ go.provFull 0 x = false
      ∧ fail.readiness 0 x = .fail ∧ wait.readiness 0 x = .wait
      ∧ (∀ b ∈ [true, false], ((t b).core 0).run 0 = some (r b) ∧ (t b).runOf 0 (r b).cmd.id = some (r b) ∧ (r b).replaying = false
          ∧ (r b).done = b ∧ Desc.cls (r b).cmd.desc = 11 ∧ (r b).status = 0
          ∧ (t b).portStops (r b).cmd = false ∧ (r b).stages.any (·.busy) = false)
      ∧ (stopped.core 0).run 0 = some q ∧ stopped.runOf 0 q.cmd.id = some q ∧ stopped.portStops q.cmd = true
      ∧ stopped.runAtBoundary 0 q = true := by decide +kernel

/-- An MMA of `m` by `n` results over `k`, formats `a` and `b`. -/
def mmaDesc (m n k a b : Nat) (more : List (Nat × Nat × Nat × Nat) := []) : BitVec 512 :=
  dsc ([(0, 0, 8, 1), (0x14, 0, 32, 64), (0x18, 0, 32, 0x1000), (0x1C, 0, 32, 64), (0x30, 0, 20, k - 1), (0x34, 0, 16, m - 1),
    (0x36, 0, 16, n - 1), (0x38, 0, 4, a), (0x38, 4, 4, b)] ++ more)

/-- Slots of a core: 0 READY, of command 5. -/
def ready0 : Phys := { slots := [(0, { st := .ready, cmd := 5 })], mxAccWait := true, hatch := [0] }

theorem test_witness_TileSteps :
    let d := mmaDesc 2 3 4 6 6
    let d2 := mmaDesc 2 3 5000 6 6
    let dk := mmaDesc 2 3 4 6 6 [(0x39, 7, 1, 1)]
    let r := oneRun d
    let s (p : Phys) := core0 { running := [r] } p
    let b (d : BitVec 512) : Run := oneRun d { busy := true, started := true }
    let z : Run := { cmd := cmd 5 (dsc [(0, 0, 8, 3), (0x1A, 0, 3, 1)]) 0 [] [d, d], stages := [{}, {}] }
    let zs := core0 { running := [z] }
    let e : ArrayErr := { kind := .column, row := 0, col := 0, group := 0, delta := 1 }
    let stop : State := { core0 { running := [{ b d with cmd := { (b d).cmd with ctx := .queue 4 0 } }] } with
      host := { queues := [(4, { st := .error, cause := 4 })] } }
    (∀ y ∈ [s {}, s ready0], y.mmaRun 0 0 = some r ∧ y.runOf 0 r.cmd.id = some r ∧ y.present 0 = true ∧ y.arrayBusy 0 = false
        ∧ y.stageMay 0 r 0 = true ∧ y.higherMma 0 r 0 = false ∧ y.mxStops 0 r = false)
      ∧ Desc.init (r.desc 0) = false ∧ Desc.keep (r.desc 0) = false ∧ (Desc.mode (r.desc 0)).wide = false ∧ (r.stage 0).step = 0
      ∧ (((s {}).phy ((s {}).under 0)).slot 0).st = .free ∧ ((s {}).phy 0).hatch.length + (s {}).reservedOn 0 < 8
      ∧ (((s ready0).phy ((s ready0).under 0)).slot 0).st ≠ .free
      ∧ (Desc.tileGeo (r.desc 0) 0).slot = 0
      ∧ (∀ x ∈ [b d, b d2, b dk], (core0 { running := [x] } |>.core 0).running.find? (fun r => r.stages.any (·.busy)) = some x
          ∧ x.stages.findIdx? (·.busy) = some 0 ∧ (core0 { running := [x] }).runOf 0 x.cmd.id = some x)
      ∧ 0 + 1 < tileSteps ((b d2).desc 0) (Desc.tileGeo d2 0) ∧ tileSteps ((b d).desc 0) (Desc.tileGeo d 0) ≤ 1 ∧ Desc.keep ((b d).desc 0) = false
      ∧ tileSteps ((b dk).desc 0) (Desc.tileGeo dk 0) ≤ 1 ∧ Desc.keep ((b dk).desc 0) = true
      ∧ zs.mmaRun 0 1 = some z ∧ zs.runOf 0 z.cmd.id = some z ∧ z.replaying = false ∧ zs.arrayBusy 0 = false ∧ z.roundReady 1 = false
      ∧ (z.stage 1).done = false ∧ (b d).done = false ∧ (b d).again = false ∧ (b d).isChain = false
      ∧ ((core0 { running := [b d] }).phy 0).spdUps = [] ∧ ((core0 { running := [b d] }).phy 0).accUps = []
      ∧ ((core0 { running := [b d] }).phy 0).failing ((b d).desc 0) ((b d).mmaBases 0) (Desc.tileGeo d 0) 0 e ≠ []
      ∧ (core0 { running := [b d] }).overrunning (b d).cmd = false ∧ stop.overrunning { (b d).cmd with ctx := .queue 4 0 } = true
      ∧ (∀ y ∈ [{ b d with again := true }, { b d with done := true }],
          (core0 { running := [y] } |>.core 0).running.find? (fun r => r.stages.any (·.busy)) = some y
          ∧ (core0 { running := [y] }).runOf 0 y.cmd.id = some y) := by decide +kernel

theorem test_witness_MatrixCommands :
    let d : Desc := mmaDesc 2 3 4 6 6
    let r := oneRun d
    let s := core0 { running := [r] }
    let o := core0 { running := [r] } ready0
    (∀ y ∈ [s, o], (y.core 0).run 0 = some r ∧ y.runOf 0 r.cmd.id = some r)
      ∧ Desc.cls r.cmd.desc = 1 ∧ r.stages.length = 1 ∧ s.stageMay 0 r 0 = true ∧ r.stage 0 = {} ∧ s.mxStops 0 r = false
      ∧ Desc.tm d * Desc.tn d = 1 ∧ tileSteps d (Desc.tileGeo d 0) = 1 ∧ Desc.init d = false ∧ Desc.keep d = false
      ∧ ((s.phy (s.under 0)).slot (Desc.tileGeo d 0).slot).st = .free ∧ ((s.phy (s.under 0)).slot ((Desc.tileGeo d 0).slot + 1)).st = .free
      ∧ (s.phy (s.under 0)).hatch.length + s.reservedOn 0 < 8 ∧ (s.phy (s.under 0)).spdUps = [] ∧ (s.phy (s.under 0)).accUps = []
      ∧ (o.core 0).running.find? (fun r => !r.done && Desc.cls r.cmd.desc == 1) = some r ∧ r.status = 0
      ∧ (o.phy (o.under 0)).mxAccWait = true ∧ (o.core 0).queue = [] ∧ (∀ x ∈ (o.core 0).running, 1 ∉ x.engines) ∧ ((o.phy 0).slot 0).pair = false ∧ ((o.phy 0).slot 0).cmd = 5
      ∧ s.hears .joinery = true ∧ s.logOf (16 : Fin 136) = none ∧ s.logOf (0 : Fin 136) ≠ none := by decide +kernel

/-- TTURN 0xFFFF; for each format an encoding at the end of its range. -/
theorem test_witness_TurnResolution : 65535 < 2 ^ 16 := by decide

theorem test_witness_EncodingsRoundTrip :
    0 ≤ 5 ∧ 5 ≤ 5 ∧ 4 ≠ 5 ∧ 0x7F7FFFFF < 2 ^ 32 ∧ 0x7F7FFFFF / 2 ^ 23 % 256 ≠ 255 ∧ 0x7FEFFFFFFFFFFFFF < 2 ^ 64
      ∧ 0x7FEFFFFFFFFFFFFF / 2 ^ 52 % 2048 ≠ 2047 ∧ 0x7F7F < 2 ^ 16 ∧ 0x7F7F / 2 ^ 7 % 256 ≠ 255 ∧ 0xFF < 2 ^ 8 ∧ 0xFF ≠ 0x80
      ∧ 0x7B < 2 ^ 8 ∧ 0x7B / 4 % 32 ≠ 31 := by decide

/-- R113: a sum beyond the range is held at the bound, with overflow and inexact. -/
theorem test_integer_group : foldInt (2 ^ 31 - 1) [(127, 127), (-1, 1)] = (2 ^ 31 - 1, fOverflow ||| fInexact) := by decide +kernel

/-! ### Attention, chains, transfers and reductions -/

theorem test_witness_EnginePrograms :
    let ra := oneRun (dsc [(0, 0, 8, 2), (0x10, 0, 32, 0x40), (0x18, 0, 32, 0x80), (0x2A, 0, 3, 5)])
    let e : ArrayErr := { kind := .column, row := 0, col := 0, group := 0, delta := 1 }
    let vop := dsc [(0, 0, 8, 4), (0x10, 0, 32, 0x100)]
    let rv := oneRun vop
    let rc : Run := { cmd := cmd 5 (dsc [(0, 0, 8, 3), (0x1A, 0, 3, 1)]) 0 [] [vop, vop], stages := [{}, {}] }
    let s (r : Run) (t : SlotState) := core0 { running := [r] } { spd := [(0x100, 1)], slots := [(1, { st := t })] }
    let out (err : Option ArrayErr) := Phys.attbBackward { (s ra .free).phy ((s ra .free).under 0) with mxAccWait := false } ra.cmd.desc err
    (∀ r ∈ [ra, rv, rc], ((s r .free).core 0).run 0 = some r ∧ (s r .free).runOf 0 r.cmd.id = some r)
      ∧ Desc.cls ra.cmd.desc = 2 ∧ ra.done = false ∧ ra.replaying = false ∧ ra.status = 0 ∧ ra.stages.length = 1 ∧ readsNoBank (s ra .free) 0 ra.cmd.id
      ∧ Desc.f ra.cmd.desc 0x2A 2 1 = 1 ∧ ((s ra .free).phy ((s ra .free).under 0)).spdUps = [] ∧ (s ra .free).overrunning ra.cmd = false ∧ ra.again = false
      ∧ (out none).fails = [] ∧ (out none).badRows = [] ∧ (out (some e)).fails ≠ []
      ∧ Desc.f ra.cmd.desc 0x2A 4 3 = 0 ∧ (∀ t < 4, (((s ra .free).phy ((s ra .free).under 0)).slot (0 + t)).st = .free)
      ∧ (((s ra .ready).phy ((s ra .ready).under 0)).slot (0 + 1)).st ≠ .free
      ∧ Desc.cls rv.cmd.desc = 4 ∧ rv.stages.length = 1 ∧ rv.stage 0 = {}
      ∧ (s rv .free).stageMay 0 rv 0 = true ∧ (rv.stage 0).started = false ∧ Desc.cls (rv.desc 0) = 4 ∧ Desc.f (rv.desc 0) 0x16 0 1 = 0
      ∧ ((s rv .free).phy ((s rv .free).under 0)).spdN (Desc.f (rv.desc 0) 0x10 0 32) 4 = 1
      ∧ Desc.cls rc.cmd.desc = 3 ∧ ∀ k ∈ [0], (s rc .free).stageMay 0 rc k = true ∧ (rc.stage k).started = false ∧ Desc.cls (rc.desc k) = 4
          ∧ Desc.f (rc.desc k) 0x16 0 1 = 0 ∧ ((s rc .free).phy ((s rc .free).under 0)).spdN (Desc.f (rc.desc k) 0x10 0 32) 4 = 1
          ∧ (s rc .free).yields 0 rc 0 = false ∧ ((s rc .free).phy ((s rc .free).under 0)).spdUps = [] := by
  unfold readsNoBank; decide +kernel

theorem test_witness_TransfersAndMessages :
    let x : Desc := dsc [(0, 0, 8, 6), (0x10, 0, 64, 0x40), (0x18, 0, 64, 0x7FFFE0), (0x20, 0, 24, 7)]
    let st := oneRun (dsc [(0, 0, 8, 6), (0x32, 13, 1, 1), (0x3C, 0, 32, 9)])
    let going := oneRun x { started := true }
    let v : Desc := dsc [(0, 0, 8, 6), (0x32, 15, 1, 1)]
    let rx := oneRun x
    let rv : Run := { cmd := cmd 5 v 0 [3], stages := [{}] }
    let s (r : Run) (g : Nat) := core0 { running := [r], samples := [(3, g)] }
    (∀ r ∈ [rx, rv], ((s r 0).core 0).run 0 = some r ∧ (s r 0).runOf 0 r.cmd.id = some r ∧ Desc.cls r.cmd.desc = 6 ∧ r.stages.length = 1
        ∧ (s r 0).stageMay 0 r 0 = true ∧ r.stage 0 = {} ∧ r.status = 0 ∧ r.outstanding = 0 ∧ readsNoBank (s r 0) 0 r.cmd.id ∧ (r.stage 0).waiting = []
        ∧ (s r 0).accBusy 0 r 0 = false ∧ ((s r 0).phy ((s r 0).under 0)).spdUps = [])
      ∧ ((s st 0).core 0).run 0 = some st ∧ (s st 0).runOf 0 st.cmd.id = some st ∧ Desc.cls st.cmd.desc = 6 ∧ (s st 0).stageMay 0 st 0 = true
      ∧ Desc.xTrack st.cmd.desc = true ∧ Desc.xVerify st.cmd.desc = false ∧ st.g0.find? 0 = none ∧ Desc.f st.cmd.desc 0x3C 0 32 = 9
      ∧ (s st 0).regionGen (Desc.xRegion st.cmd.desc) ≠ 9 ∧ (s st 0).accBusy 0 st 0 = false
      ∧ ((s going 0).core 0).run 0 = some going ∧ (going.stage 0).started = true ∧ Desc.xVerify going.cmd.desc = false
      ∧ rv.rounds ≤ (rv.stage 0).round + 1 ∧ Desc.lsUses x = false
      ∧ Desc.xVerify x = false ∧ Desc.xTrack x = false ∧ Desc.xSrcKind x = 0 ∧ Desc.xDstKind x = 0 ∧ Desc.xRows x = 1
      ∧ Desc.xSrcFmt x = Desc.xDstFmt x ∧ 0x40 + Desc.xSrcRow x ≤ spdSize ∧ 0x7FFFE0 + Desc.xSrcRow x = spdSize
      ∧ Desc.xVerify v = true ∧ rv.cmd.deps = [3]
      ∧ ((s rv 0).core 0).samples.find? 3 = some ((s rv 0).regionGen (Desc.xRegion v))
      ∧ ((s rv 2).core 0).samples.find? 3 ≠ some ((s rv 2).regionGen (Desc.xRegion v)) := by unfold readsNoBank; decide +kernel

theorem test_witness_TransfersAndMessages_messages :
    let s (r : Run) (g : Nat) := core0 { running := [r], samples := [(3, g)] }
    let rg := oneRun (dsc [(0, 0, 8, 7), (0x10, 0, 48, 0x2000), (0x20, 0, 32, 3), (0x28, 0, 6, 1), (0x28, 6, 10, 2)])
    let rs : Run := { cmd := cmd 5 (dsc [(0, 0, 8, 8)]) 0 [] [dsc [(0, 0, 32, 5), (8, 0, 48, 0x3000)]] }
    let rr := oneRun (dsc [(0, 0, 8, 7), (0x20, 0, 32, 3), (0x24, 13, 1, 1), (0x28, 0, 6, 1), (0x28, 6, 10, 2)])
    let ss : Run := { cmd := cmd 5 (dsc [(0, 0, 8, 8), (0x18, 16, 1, 1)]) 0 [] [dsc [(0, 0, 32, 5), (8, 0, 48, 0x3000)]] }
    let gs := ((s rg 0).setRec (groupRec 1) 0 1 1).setRec (groupRec 1 + 4) 0 12 3
    (∀ y ∈ [(gs, rg), (s rs 0, rs), (s rr 0, rr), (s ss 0, ss)], (y.1.core 0).run 0 = some y.2 ∧ y.1.runOf 0 y.2.cmd.id = some y.2 ∧ y.2.issuedAll = false
          ∧ y.2.done = false ∧ readsNoBank y.1 0 y.2.cmd.id)
      ∧ (∀ y ∈ [gs, s rr 0], y.reds.find? (treeKey (1 + 64 * 2) true) = none ∧ y.inst? 1 2 = none)
      ∧ Desc.cls rr.cmd.desc = 7 ∧ Desc.f rr.cmd.desc 0x24 13 1 = 1 ∧ ((s rr 0).reserve_ 0 []).getLeft? = some 0x44
      ∧ Desc.cls ss.cmd.desc = 8 ∧ Desc.f ss.cmd.desc 0x18 16 1 = 1 ∧ ((s ss 0).reserve_ 0 [(5, 1)]).getLeft? = some 0x44
      ∧ Desc.cls rg.cmd.desc = 7 ∧ gs.inst? 1 2 = none ∧ 2 ≤ gs.inner 1 ∧ Desc.f rg.cmd.desc 0x24 13 1 = 0
      ∧ Desc.cls rs.cmd.desc = 8 ∧ Desc.f rs.cmd.desc 0x18 16 1 = 0 := by unfold readsNoBank; decide +kernel

/-- A RED of the cores of `mask`. -/
def redDesc (mask : Nat) : BitVec 512 := dsc [(0, 0, 8, 5), (0x10, 0, 128, mask), (0x20, 0, 32, 0x40), (0x24, 0, 21, 1), (0x34, 0, 16, 7)]

theorem test_witness_ReductionTree :
    let r (m : Nat) := oneRun (redDesc m)
    let s := core0 { running := [r 3] }
    let nv (x y : Nat) : NodeVal := { els := [x, y] }
    let t (m : Nat) (cs : List (Nat × Nat)) : RedTree := { desc := redDesc m, part := 0, cores := cs, nodes := [(0, nv 1 2), (1, nv 3 4)] }
    let w (m : Nat) (cs : List (Nat × Nat)) : State := { s with reds := [(7, t m cs)] }
    let other := { s with reds := [(7, t 15 [(1, 6)])] }
    redAgree (t 15 [(1, 6)]).desc (r 3).cmd.desc = false ∧ other.redWaits 0 (r 3).cmd.desc = false ∧ other.reds.find? 7 = some (t 15 [(1, 6)])
      ∧ (r 3).replaying = false ∧ (s.phy (s.under 0)).spdUps = [] ∧ (w 3 [(0, 5)]).redWaits 0 (r 3).cmd.desc = true
      ∧ Desc.lsUses (r 3).cmd.desc = false
      ∧ (s.core 0).run 0 = some (r 3) ∧ s.runOf 0 (r 3).cmd.id = some (r 3) ∧ Desc.cls (r 3).cmd.desc = 5 ∧ (r 3).issuedAll = false ∧ (r 3).done = false
      ∧ s.redWaits 0 (r 3).cmd.desc = false ∧ redKey (r 3).cmd.desc = 7 ∧ s.reds.find? 7 = none
      ∧ (maskCores (Desc.f (r 3).cmd.desc 0x10 0 128)).length = 2
      ∧ (w 3 [(0, 5)]).reds.find? 7 = some (t 3 [(0, 5)]) ∧ [(0, 5)].length < 2 ∧ 2 ≤ [(0, 5), (1, 6)].length
      ∧ (t 3 []).nodes.find? (128 * (1 - 1) + 0) = some (nv 1 2) ∧ (t 3 []).nodes.find? (128 * (1 - 1) + 0 + 2 ^ (1 - 1)) = some (nv 3 4)
      ∧ passUp 2 0 64 1 = treeDepth 2 ∧ (t 3 [(0, 5), (1, 6)]).cores ≠ [] ∧ redOp (redDesc 3) = 0
      ∧ (maskCores (Desc.f (redDesc 15) 0x10 0 128)).length = 4 ∧ passUp 4 0 64 1 ≠ treeDepth 4
      ∧ (t 15 []).nodes.find? (128 * treeDepth 4) = none := by decide +kernel

/-! ### Vector instructions -/

/-- An instruction word of the vector engine without its opcode. -/
def vi (vd va vb vc bb w : Nat) : BitVec 32 := BitVec.ofNat 32 (vd * 2 ^ 7 + va * 2 ^ 12 + vb * 2 ^ 17 + vc * 2 ^ 22 + bb * 2 ^ 27 + w * 2 ^ 31)

/-- A VOP that runs on core 0. -/
def vopRun : Run := oneRun (dsc [(0, 0, 8, 4), (0x10, 0, 32, 0x100)]) { started := true }

/-- Its core, with vector length `vl` and `p` beside it; V1 is 1.0, pi, -2.0, a signalling NaN, infinity. -/
def vec (vl : Nat) (p : Phys := {}) : State :=
  core0 { running := [vopRun] }
    { p with vl := vl, vregs := [(512, 0x3F800000), (513, 0x40490FDB), (514, 0xC0000000), (515, 0x7F800001), (516, 0x7F800000), (1024, 0x3F000000)] }

theorem test_witness_VectorElementwise : vecReady (vec 512) 0 vopRun 0
    ∧ (∀ op ∈ [0x08, 0x09, 0x0A, 0x0B, 0x0C, 0x0D, 0x0E, 0x0F, 0x10, 0x11, 0x13, 0x14, 0x15, 0x18, 0x19, 0x1A, 0x1B, 0x20],
        vFieldOk { vIns (vi 3 1 2 1 0 0).toNat with op := op } false = true
          ∨ vFieldOk { vIns (vi 3 1 2 0 0 0).toNat with op := op } false = true
          ∨ vFieldOk { vIns (vi 3 1 0 0 0 0).toNat with op := op } false = true)
    ∧ 512 ≤ vlMax { vIns (vi 3 1 2 0 0 0).toNat with op := 8 } ∧ 256 ≤ vlMax { vIns (vi 2 4 6 0 0 1).toNat with op := 8 } := by
  unfold vecReady vecRuns soundStore; decide +kernel

theorem test_witness_VectorRearranges : vecReady (vec 5) 0 vopRun 0
    ∧ (∀ c < 4, vFieldOk { vIns (vi 2 0 0 c 0 0).toNat with op := 0x12 } false = true)
    ∧ (∀ op ∈ [0x28, 0x29, 0x2A, 0x30, 0x31, 0x32, 0x33],
        vFieldOk { vIns (vi 2 1 0 0 0 0).toNat with op := op } false = true ∨ vFieldOk { vIns (vi 2 1 3 0 0 0).toNat with op := op } false = true)
    ∧ ∀ op ∈ [0x12, 0x28, 0x29, 0x2A, 0x30, 0x31, 0x32, 0x33], 5 ≤ vlMax { vIns (vi 2 1 0 0 0 0).toNat with op := op } := by
  unfold vecReady vecRuns soundStore; decide +kernel

/-- R174: VADD of 1.0 and 0.5; R185: the reversal of five elements. -/
theorem test_vadd_vrev :
    after (exec (.vadd 0 (vi 3 1 2 0 0 0)) (vec 1)) (fun u => (u.phy 0).el false 3 0) = some 0x3FC00000
    ∧ after (exec (.vrev 0 (vi 3 1 0 0 0 0)) (vec 5)) (fun u => (u.phy 0).el false 3 4) = some 0x3F800000 := by decide +kernel

/-- A tile handle of 32-bit entries. -/
def handle (slot rows cols : Nat) : BitVec 64 := BitVec.ofNat 64 (slot + (rows - 1) * 64 + (cols - 1) * 2 ^ 14 + 5 * 2 ^ 24)

theorem test_witness_VectorControl :
    let p : Phys := { cur := some (handle 0 2 3), hatch := [handle 3 4 4], slots := [(0, { st := .draining }), (3, { st := .ready })] }
    let v (w : BitVec 32) (op : Nat) := vFieldOk { vIns w.toNat with op := op } false
    vecReady (vec 5 p) 0 vopRun 0 ∧ vecReady (vec 5) 0 vopRun 0 ∧ v 0 0 = true ∧ v 0 1 = true ∧ v (vi 0 0 31 15 0 0) 2 = true
      ∧ (vIns (vi 0 0 31 15 0 0).toNat).imm = 511 ∧ v (vi 1 0 1 0 0 0) 0x38 = true ∧ v (vi 1 0 0 0 0 0) 0x39 = true
      ∧ hWide (handle 0 2 3) = false ∧ ((vec 5 p).phy 0).cur = some (handle 0 2 3) ∧ ((vec 5 p).phy 0).hatch = [handle 3 4 4]
      ∧ (((vec 5 p).phy 0).slot (hSlot (handle 3 4 4))).pair = false ∧ hSlot (handle 0 2 3) ≠ hSlot (handle 3 4 4)
      ∧ ((vec 5).phy 0).hatch = [] ∧ v (vi 4 0 7 0 0 0) 0x3A = true ∧ v (vi 0 1 7 0 0 0) 0x3B = true
      ∧ Desc.lsApply (vopRun.desc 0) = false ∧ Desc.lsRemove (vopRun.desc 0) = false
      ∧ ((vec 512).phy 0).el false 7 0 + 4 * 512 ≤ spdSize
      ∧ v (vi 1 1 2 1 0 0) 0x08 = false ∧ vopRun.status = 0
      ∧ (let s := vec 5 { stream := true }
         s.vecRun 0 = some (vopRun, 0) ∧ s.runOf 0 vopRun.cmd.id = some vopRun ∧ (vopRun.stage 0).started = true ∧ (s.phy (s.under 0)).stream = true) := by
  unfold vecReady vecRuns soundStore; decide +kernel

/-- Row 0 of a tile has been drained from slot 0, and slot 3 is READY. -/
def tiles (hatch : List (BitVec 64) := [handle 3 4 4]) : Phys :=
  { cur := some (handle 0 2 3), hatch := hatch, slots := [(0, { st := .draining }), (3, { st := .ready })], vl := 5 }

/-- Slot 3 is POISONED. -/
def poisoned : Phys := { hatch := [handle 3 4 4], slots := [(3, { st := .poisoned })] }

/-- The VOP takes its tile again after a replay; the VOP is of a queue whose port has been reset. -/
def again : Run := { vopRun with regain := true }
def stopped : Run := { vopRun with cmd := { vopRun.cmd with ctx := .queue 4 0 } }
def runsOf (r : Run) (p : Phys) : State :=
  { core0 { running := [r] } p with host := { queues := [(4, { st := .error, cause := 4 })] } }

theorem test_witness_VectorControl_tiles : vecReady (vec 5 poisoned) 0 vopRun 0 ∧ ((vec 5 poisoned).phy 0).cur = none
    ∧ (((vec 5 poisoned).phy 0).slot (hSlot (handle 3 4 4))).st = .poisoned ∧ (vec 5 poisoned).overrunning vopRun.cmd = false
    ∧ vopRun.regain = false ∧ ((vec 5 tiles).phy 0).hatch = [handle 3 4 4] ∧ (((vec 5 tiles).phy 0).slot (hSlot (handle 3 4 4))).st ≠ .poisoned
    ∧ vecRuns (vec 5 { vpc := 1024 }) 0 vopRun 0 ∧ 1024 ≤ ((vec 5 { vpc := 1024 }).phy 0).vpc := by
  unfold vecReady vecRuns soundStore; decide +kernel

theorem test_witness_VectorControl_again : vecReady (runsOf again (tiles [])) 0 again 0 ∧ (runsOf again (tiles [])).overrunning again.cmd = false
    ∧ ((runsOf again (tiles [])).phy 0).cur = some (handle 0 2 3) ∧ ((runsOf again (tiles [])).phy 0).hatch = []
    ∧ vecReady (runsOf stopped (tiles [])) 0 stopped 0 ∧ (runsOf stopped (tiles [])).overrunning stopped.cmd = true
    ∧ ((runsOf stopped (tiles [])).phy 0).hatch = [] := by unfold vecReady vecRuns soundStore; decide +kernel

/-! ### Revolve, pages, shard groups -/

/-- Fields of records: address, lowest bit, width, value. -/
def recs (s : State) (fs : List (Nat × Nat × Nat × Nat)) : State := fs.foldl (fun s (a, lo, w, v) => s.setRec a lo w v) s

theorem recs_regs (s : State) (fs : List (Nat × Nat × Nat × Nat)) : (recs s fs).regs = s.regs := by
  unfold recs
  induction fs generalizing s with
  | nil => rfl
  | cons f fs ih => exact ih (s.setRec f.1 f.2.1 f.2.2.1 f.2.2.2)

/-- Device memory that holds these 64-bit words, their addresses rising. -/
def words (ws : List (Nat × Nat)) : Tab Byte := ws.flatMap (fun w => (List.range 8).filterMap (fun i =>
  let b := w.2 / 256 ^ i % 256
  if b = 0 then none else some (w.1 + i, BitVec.ofNat 8 b)))

/-- A ready machine in turn 10. -/
def base (ws : List (Nat × Nat) := []) : State := { regs := owned, mem := words ws, turn := { running := true, num := 10 }, start := { ready := true } }

/-- Every address lies on one of 1,024 pseudo-channels. -/
theorem stacksUp_of {s : State} (key : ∀ c < 1024, s.pcState c ≠ 3) : stacksUp s := by
  intro a
  refine key _ ?_
  have hr : ∀ x, rotl10 x 5 < 2 ^ 10 := fun x => Nat.mod_lt _ (by decide)
  have h3 : a / 2 ^ 38 % 4 * 0x155 < 2 ^ 10 := by omega
  exact Nat.xor_lt_two_pow (Nat.xor_lt_two_pow (Nat.xor_lt_two_pow (Nat.mod_lt _ (by decide)) (Nat.mod_lt _ (by decide))) (hr _)) h3

/-- No stack is down where the registers are these. -/
theorem stacksUp_owned {s : State} (h : s.regs = owned) : stacksUp s := by
  have key : ∀ c < 1024, ({ regs := owned } : State).pcState c ≠ 3 := by decide +kernel
  refine stacksUp_of (fun c hc => ?_)
  have hx : s.pcState c = ({ regs := owned } : State).pcState c := by
    unfold State.pcState State.fld State.reg; rw [h]
  rw [hx]
  exact key c hc

/-- The record of ring 0. -/
def ring0 (st : Nat) (more : List (Nat × Nat × Nat × Nat) := []) (x : RingSt := {}) : State :=
  let r := 0xF000100000
  { recs (base [(0x30008, 1), (r, st + 2 ^ 8 + 3 * 2 ^ 16 + 3 * 2 ^ 32), (r + 8, 7 + 9 * 2 ^ 32), (r + 0x10, 0x10000), (r + 0x18, 0x200 + 64 * 2 ^ 32),
      (r + 0x20, 0x20000), (r + 0x28, 12), (r + 0x30, 2 + 5 * 2 ^ 16 + 0x22 * 2 ^ 32), (r + 0x40, 0x30000), (r + 0x48, 0x30008)]) more
    with rings := [(0, x)] }

theorem test_witness_RingControl :
    let first := ring0 2 [(0xF000100028, 0, 48, 9)] { own := true, tickOwn := true }
    let later := ring0 2 [(0xF000100028, 0, 48, 9)] { started := 1, arrived := 1, tickArrived := 1, lastStart := 8 }
    (ring0 0).writesFor .joinery ((ring0 0).ringPart 0) = true ∧ (ring0 0).writesFor (.part 1) ((ring0 0).ringPart 0) = false
      ∧ (ring0 0).ringLive 0 = false ∧ (ring0 0).ringOk 0 = true
      ∧ (ring0 4 [(0xF000100028, 0, 48, 11)]).ringLive 0 = false ∧ (ring0 4 [(0xF000100028, 0, 48, 11)]).ringOk 0 = false
      ∧ (ring0 1).ringLive 0 = true
      ∧ first.ringState 0 = 2 ∧ (first.ring 0).started = 0 ∧ (first.ring 0).tickOwn = true ∧ first.rf 0 0x28 0 48 ≤ first.turnNo
      ∧ later.ringState 0 = 2 ∧ 1 ≤ later.ringHops 0 ∧ 1 ≤ (later.ring 0).tickArrived ∧ 1 ≤ (later.ring 0).tickDone + 1 ∧ (ring0 1).ringState 0 ≠ 2 ∧ (later.ring 0).lastStart + (later.rf 0 0 8 4 + 1) = later.turnNo
      ∧ (let s := ring0 2 [] { stall := 3 }
         s.ringLive 0 = true ∧ s.rf 0 0 16 8 ≤ (s.ring 0).stall ∧ ((ring0 2).ring 0).stall < (ring0 2).rf 0 0 16 8) := by decide +kernel

theorem test_witness_RingControl_stacksUp : stacksUp (ring0 0) :=
  stacksUp_owned (by simp only [ring0, recs_regs, base])

/-- The record of pool 0, sequence entry 0, which is ACTIVE, and its page list. -/
def pool0 (on : Nat) (more : List (Nat × Nat × Nat × Nat) := []) (x : PoolSt := {}) : State :=
  let p := 0xF000110000
  { recs (base [(0x600000, 5), (0x700000, 2 ^ 64 - 1), (0x700008, 0xFFFFFFFF00000002), (p, on + 0x22 * 2 ^ 8 + 15 * 2 ^ 48),
      (p + 8, 2 + 0x80000 * 2 ^ 32), (p + 0x10, 0x1000000), (p + 0x18, 8 + 16 * 2 ^ 32), (p + 0x20, 0x100000), (p + 0x28, 2 + 4 * 2 ^ 32),
      (p + 0x30, 0x200000), (p + 0x38, 1), (p + 0x40, 77), (p + 0x48, 0x300000), (p + 0x50, 0x400000), (p + 0x58, 0x500000), (p + 0x60, 63),
      (p + 0x68, 0x600000), (0xF001000000, 1), (0xF001000010, 0x700000)]) more
    with pools := [(0, x)] }

theorem pool0_regs (on : Nat) (more : List (Nat × Nat × Nat × Nat)) (x : PoolSt) : (pool0 on more x).regs = owned := by
  simp only [pool0, recs_regs, base]

/-- Page 2 in state `st`, with copy tier `t` and `refs` references. -/
def page2 (st t refs : Nat) : List (Nat × Nat × Nat × Nat) := [(0x100040, 0, 3, st), (0x100040, 5, 2, t), (0x100040, 32, 32, refs)]

theorem test_witness_PoolStates :
    let on' (s : State) (v : Word) := s.setRec (poolRec 0) 8 24 (bits v 8 24)
    let bad := pool0 0 [(0xF000110028, 0, 32, 4)]
    let spill := pool0 1 (page2 3 3 0) { pages := [2] }
    let acked := pool0 1 (page2 3 1 1) { pages := [2], acked := [2] }
    let back := pool0 1 (page2 5 3 1) { pages := [2], landed := [2], returns := [{ page := 2, tier := 3, target := 12, started := true }] }
    (pool0 0).writesFor .joinery 0 = true ∧ (pool0 0).writesFor (.part 1) 0 = false ∧ (pool0 0).poolOn 0 = false
      ∧ (on' (pool0 0) 0x2201).poolOk 0 = true ∧ bit (0x2201 : Word) 1 = false ∧ bad.poolOn 0 = false ∧ (on' bad 0x2201).poolOk 0 = false
      ∧ (∀ x ∈ [spill, acked, back], x.poolOn 0 = true ∧ 2 ∈ (x.pool 0).pages ∧ x.inPart 0 (x.pd 0 2) 8 = true)
      ∧ spill.pageState 0 2 = 3 ∧ spill.pageTier 0 2 = 3 ∧ spill.pageRefs 0 2 = 0
      ∧ acked.pageState 0 2 = 3 ∧ 2 ∈ (acked.pool 0).acked ∧ acked.pageTier 0 2 ≠ 3
      ∧ back.pageState 0 2 = 5 ∧ 2 ∈ (back.pool 0).landed
      ∧ (∀ s ∈ [spill, acked, back], ∀ y ∈ (s.pool 0).returns, y.target ≠ 0 ∨ y.started = true) := by decide +kernel

/-- R299: the pool above is enabled. -/
theorem test_poolEnable : after (exec (.poolEnable .joinery 0 0x2201) (pool0 0)) (fun u => (u.poolOn 0, u.pf 0 0xB0 0 32)) = some (true, 8) := by
  decide +kernel

/-- The pool with one request in its ring, with this OP and operands. -/
def request0 (op b n : Nat) (seq : Nat := 0) (more : List (Nat × Nat × Nat × Nat) := []) (x : PoolSt := {}) : State :=
  pool0 1 ([(0x500000, 0, 8, op), (0x500000, 32, 18, seq), (0x500008, 0, 64, b), (0x500010, 0, 64, n), (0x500018, 0, 64, 0)] ++ more)
    { x with tail := 1 }

/-- What headReq asks beside the stacks. -/
def atHead (s : State) (op : Nat) : Bool :=
  s.poolOn 0 && 0x500000 == s.pf 0 0x58 0 48 + 32 * s.pf 0 0x64 0 32 && s.pf 0 0x64 0 32 != (s.pool 0).tail
    && (s.pool 0).tail == (s.pf 0 0x64 0 32 + 1) % (s.pf 0 0x60 0 16 + 1) && s.rec_ 0x500000 0 8 == op && !s.reqReserved 0x500000
    && s.inPart 0 0x500000 32

theorem headReq_of {s : State} {op : Nat} (h : atHead s op = true) (hr : s.regs = owned) : headReq s 0 op 0x500000 := by
  simp only [atHead, Bool.and_eq_true, beq_iff_eq, bne_iff_ne, ne_eq, Bool.not_eq_true'] at h
  exact ⟨h.1.1.1.1.1.1, h.1.1.1.1.1.2, h.1.1.1.1.2, h.1.1.1.2, h.1.1.2, h.1.2, h.2, stacksUp_owned hr⟩

theorem test_witness_headReq (op b n q : Nat) (m : List (Nat × Nat × Nat × Nat)) (x : PoolSt) (h : atHead (request0 op b n q m x) op = true) :
    headReq (request0 op b n q m x) 0 op 0x500000 := headReq_of h (pool0_regs _ _ _)

/-- Page `k` is FULL with one reference. -/
def full (k : Nat) : List (Nat × Nat × Nat × Nat) := [(0x100000 + 32 * k, 0, 3, 2), (0x100000 + 32 * k, 32, 32, 1)]

/-- Node 3 of the prefix tree holds the hash of 4,096 zeros that follow the root. -/
def node3 : List (Nat × Nat × Nat × Nat) :=
  [(0x2000C0, 0, 64, runHash 77 (List.replicate 4096 0)), (0x2000C8, 0, 32, 0xFFFFFFFF), (0x2000CC, 0, 17, 0x10000), (0x2000D0, 0, 32, 1)]

/-- A request whose tokens stand at 0x800000, which are zeros. -/
def tree (op n : Nat) (seq : Nat := 0) (more : List (Nat × Nat × Nat × Nat) := []) : State := request0 op 0x800000 n seq more

/-- One granule of zeros, and its hash after the root. -/
def granule0 : List Nat := List.replicate 4096 0
def zeroHash : Nat := runHash 77 granule0

/-- A token array in which no byte is listed is zeros. -/
theorem tokens_zero {s : State} {a : Nat} (h : s.mem.all (fun c => decide (c.1 < a ∨ a + 16384 ≤ c.1)) = true) :
    s.tokens a = granule0 := by
  have get : ∀ (m : List Host.Cell), m.all (fun c => decide (c.1 < a ∨ a + 16384 ≤ c.1)) = true →
      ∀ i, i < 16384 → memGet m (a + i) = 0 := by
    intro m
    induction m with
    | nil => intro _ i _; rfl
    | cons c m ih =>
      intro hm i hi
      simp only [List.all_cons, Bool.and_eq_true, decide_eq_true_eq] at hm
      have hc : ¬ c.1 = a + i := by omega
      have := ih hm.2 i hi
      simp only [memGet, Sys2Proof.Tab.get, Sys2Proof.Tab.find?, hc, if_false] at this ⊢
      exact this
  have four : ∀ i ∈ upTo 4096, s.peekN (a + 4 * i) 4 = 0 := by
    intro i hi
    have hi : i < 4096 := by simpa [upTo] using hi
    have e : ∀ j < 4, memGet s.mem (a + 4 * i + j) = 0 := fun j hj => by
      rw [Nat.add_assoc]; exact get _ h _ (by omega)
    have e0 : memGet s.mem (a + 4 * i) = 0 := get _ h _ (by omega)
    have : s.peek (a + 4 * i) 4 = [0, 0, 0, 0] := by
      simp [State.peek, memGets, upTo, List.range_succ, e0, e 1, e 2, e 3]
    rw [State.peekN, this]; rfl
  unfold State.tokens
  rw [List.map_congr_left four, List.map_const', show (upTo 4096).length = 4096 from List.length_range]
  rfl

/-- The node of such a granule, if any. -/
def zeroNode (s : State) : Option Nat := ((upTo 8).map (8 * s.bucketOf 0 zeroHash + ·)).find? (fun i =>
  s.nodeValid 0 i && s.nf 0 i 0 0 64 == zeroHash && s.nf 0 i 8 0 32 == noPage && s.nf 0 i 0x0C 0 16 == 0)

/-- How a lookup of one granule of zeros goes. -/
theorem lookup_zero {s : State} (hz : s.mem.all (fun c => decide (c.1 < 0x800000 ∨ 0x800000 + 16384 ≤ c.1)) = true)
    (hn : min (4096 / 4096) (s.gmax 0 + 1) = 1) (hr : s.pf 0 0x40 0 64 = 77) :
    s.lookupTree 0 0x800000 4096 = match zeroNode s with
      | some i => if s.nodeToks 0 i = granule0 then ([i], false, zeroHash) else ([], true, 77)
      | none => ([], false, 77) := by
  have hf : s.findNode 0 zeroHash noPage 0 (granule0) = match zeroNode s with
      | some i => if s.nodeToks 0 i = granule0 then .hit i else .collision
      | none => .miss := rfl
  unfold State.lookupTree
  rw [hn, hr]
  simp only [State.walk, Nat.mul_zero, Nat.add_zero, tokens_zero hz]
  rw [show runHash 77 (granule0) = zeroHash from rfl, hf]
  cases zeroNode s with
  | none => rfl
  | some i => by_cases h : s.nodeToks 0 i = granule0 <;> simp only [h, if_true, if_false]

/-- What lookup_zero asks of these states. -/
abbrev zeros (s : State) : Prop := s.mem.all (fun c => decide (c.1 < 0x800000 ∨ 0x800000 + 16384 ≤ c.1)) = true
  ∧ min (4096 / 4096) (s.gmax 0 + 1) = 1 ∧ s.pf 0 0x40 0 64 = 77

theorem test_witness_TreeRequests_found : zeros (tree 2 4096 0 node3) ∧ zeroNode (tree 2 4096 0 node3) = some 3 := by decide +kernel

theorem test_witness_TreeRequests_attach :
    let s := tree 2 4096 0 ((0x700000, 0, 32, 4) :: node3)
    let new := tree 2 4096 0 [(0x700000, 0, 32, 4)]
    let gone := tree 2 4096 0 ([(0x40000C, 0, 32, 2), (0x100040, 0, 3, 6)] ++ node3)
    let free := tree 2 4096 0 ((0x40000C, 0, 32, 2) :: node3 ++ full 2)
    (∀ x ∈ [(1, tree 1 4096), (1, request0 1 3 4096), (2, tree 2 4096 5), (2, new), (2, s)], atHead x.2 x.1)
      ∧ (tree 1 4096).tokensOk 0 0x800000 4096 = true ∧ (request0 1 3 4096).tokensOk 0 3 4096 = false
      ∧ (tree 2 4096 5).tokensOk 0 0x800000 4096 = true ∧ (tree 2 4096 5).seqActive 5 0 = false
      ∧ (∀ x ∈ [new, s], x.tokensOk 0 0x800000 4096 = true ∧ x.seqActive 0 0 = true ∧ x.groupPages 0 0 0 ≠ [])
      ∧ (∀ x ∈ [gone, free], atHead x 2 ∧ zeros x ∧ zeroNode x = some 3 ∧ x.tokensOk 0 0x800000 4096 = true ∧ x.seqActive 0 0 = true
          ∧ x.groupPages 0 0 0 = [] ∧ x.nodePages 0 3 = [2])
      ∧ gone.pageState 0 2 = 6 ∧ free.pageState 0 2 = 2
      ∧ zeros s ∧ zeros new ∧ zeroNode s = some 3 ∧ zeroNode new = none := by decide +kernel

theorem test_witness_TreeRequests_insert :
    let a := request0 3 3 0
    let b := tree 3 0 5
    let x (m : List (Nat × Nat × Nat × Nat)) := tree 3 0 0 ((0x700000, 0, 32, 4) :: m)
    let new := x (full 4)
    let lost := x [(0x100080, 0, 3, 6)]
    let part := x [(0x100080, 0, 3, 1)]
    (∀ s ∈ [a, b, new, lost, part], atHead s 3)
      ∧ a.tokensOk 0 3 4096 = false ∧ b.tokensOk 0 0x800000 4096 = true ∧ b.seqActive 5 0 = false
      ∧ (∀ s ∈ [new, lost, part], 0 ≤ s.gmax 0 ∧ s.tokensOk 0 0x800000 4096 = true ∧ s.seqActive 0 0 = true ∧ s.groupPages 0 0 0 = [4])
      ∧ lost.pageState 0 4 = 6 ∧ part.pageState 0 4 = 1 ∧ new.pageState 0 4 = 2 ∧ new.lh 0 = 1
      ∧ zeros new ∧ zeroNode new = none ∧ (new.touchNodes 0 [] false).wayFor 0 zeroHash noPage = some 0 := by decide +kernel

/-- Every way of the only set holds a node that is attached; the granule's own node; its node with other tokens. -/
theorem test_witness_TreeRequests_ways :
    let x (m : List (Nat × Nat × Nat × Nat)) := tree 3 0 0 ((0x700000, 0, 32, 4) :: full 4 ++ m)
    let used := x ((upTo 8).flatMap (fun i => [(0x20000C + 64 * i, 16, 1, 1), (0x200010 + 64 * i, 0, 32, 1)]))
    zeros used ∧ zeroNode used = none ∧ (used.touchNodes 0 [] false).wayFor 0 zeroHash noPage = none
      ∧ zeros (x node3) ∧ zeroNode (x node3) = some 3
      ∧ (x node3).mem.all (fun c => decide (c.1 < 0x30C000 ∨ 0x30C000 + 16384 ≤ c.1)) = true
      ∧ zeroNode (x ((0x30C000, 0, 32, 5) :: node3)) = some 3
      ∧ (x ((0x30C000, 0, 32, 5) :: node3)).nodeToks 0 3 ≠ granule0 := by decide +kernel

theorem test_witness_TreeRequests_flush :
    let used := request0 8 99 0 0 node3
    let idle := request0 8 99 0
    atHead used 8 ∧ atHead idle 8 ∧ used.pf 0 0x38 0 32 = 1 ∧ used.nodeValid 0 3 = true ∧ used.nf 0 3 0x10 0 32 ≠ 0
      ∧ (∀ j < 8, idle.nodeValid 0 j = false) ∧ idle.inPart 0 0x200000 512 = true := by decide +kernel

/-- R310: a LOOKUP of no tokens ends well and finds nothing; a PREFETCH 1 turn ahead is refused. -/
theorem test_tree_requests :
    after (exec (.lookup 0) (tree 1 0)) (fun u => (u.peekN 0x500001 1, u.peekN 0x500010 8)) = some (0, 0)
    ∧ after (exec (.prefetch 0) (request0 7 0 1)) (fun u => u.peekN 0x500001 1) = some 0xC8 := by decide +kernel

/-- The code, and the pages, that the range of a request gives. -/
def codeOf : Nat ⊕ List Nat → Option Nat
  | .inl c => some c
  | .inr _ => none
def pagesOf : Nat ⊕ List Nat → Option (List Nat)
  | .inl _ => none
  | .inr l => some l

theorem codeOf_some {x : Nat ⊕ List Nat} {c : Nat} (h : codeOf x = some c) : x = .inl c := by
  cases x with
  | inl => exact congrArg Sum.inl (Option.some.inj h)
  | inr => cases h

theorem pagesOf_some {x : Nat ⊕ List Nat} {l : List Nat} (h : pagesOf x = some l) : x = .inr l := by
  cases x with
  | inl => cases h
  | inr => exact congrArg Sum.inr (Option.some.inj h)

theorem test_witness_PageRequests :
    let held := request0 4 0 0 0 ((0x700000, 0, 32, 4) :: full 4) { pages := [2, 4], attached := [(0, [3])] }
    let none4 := request0 4 0 0 5
    let pin (op n seq : Nat) (m : List (Nat × Nat × Nat × Nat)) := request0 op 0 n seq m { pages := [2] }
    let back : List (Nat × Nat × Nat × Nat) := [(0x100040, 0, 3, 4), (0x100040, 5, 2, 3)]
    let lostPage : List (Nat × Nat × Nat × Nat) := [(0x100040, 0, 3, 6)]
    (∀ s ∈ [held, none4], atHead s 4) ∧ held.seqActive 0 0 = true ∧ none4.seqActive 5 0 = false
      ∧ (∀ op ∈ [5, 6], atHead (pin op 2 5 []) op ∧ atHead (pin op 2 0 (full 2)) op
          ∧ codeOf ((pin op 2 5 []).rangePages 0 0x500000 5) = some 0xC9 ∧ pagesOf ((pin op 2 0 (full 2)).rangePages 0 0x500000 0) = some [2])
      ∧ atHead (pin 5 2 0 lostPage) 5 ∧ pagesOf ((pin 5 2 0 lostPage).rangePages 0 0x500000 0) = some [2] ∧ (pin 5 2 0 lostPage).pageState 0 2 = 6
      ∧ (pin 5 2 0 (full 2)).pageState 0 2 = 2 ∧ ((pin 5 2 0 (full 2)).admitReturns 0 12 [2]).1 = true
      ∧ atHead (pin 5 2 0 back) 5 ∧ pagesOf ((pin 5 2 0 back).rangePages 0 0x500000 0) = some [2] ∧ ((pin 5 2 0 back).admitReturns 0 12 [2]).1 = false
      ∧ (pin 5 2 0 (full 2)).inPart 0 ((pin 5 2 0 (full 2)).pd 0 2) 8 = true
      ∧ (∀ s ∈ [request0 7 0 1, request0 7 0 4096, request0 7 0 2 5, pin 7 2 0 (full 2), pin 7 2 0 lostPage, pin 7 2 0 back], atHead s 7)
      ∧ (request0 7 0 2 5).seqActive 5 0 = false ∧ (pin 7 2 0 (full 2)).seqActive 0 0 = true ∧ (pin 7 2 0 (full 2)).seqPages 0 0 = [2]
      ∧ (pin 7 2 0 lostPage).pageState 0 2 = 6 ∧ ((pin 7 2 0 (full 2)).admitReturns 0 12 [2]).1 = true
      ∧ ((pin 7 2 0 back).admitReturns 0 12 [2]).1 = false := by decide +kernel

/-- The record of group 0; an instance of it that has begun has stalled for `stall` turns. -/
def group0 (st : Nat) (more : List (Nat × Nat × Nat × Nat) := []) (g : GroupSt := {}) : State :=
  let a := 0xF000120000
  { recs (base [(a, st + 2 * 2 ^ 16 + 2 ^ 32), (a + 0x10, 0x1000), (a + 0x18, 3 * 2 ^ 16 + 2 ^ 32), (a + 0x28, 0x1000), (a + 0x80, 1)]) more
    with groups := g }

/-- Instance 0 of the group. -/
def stalled (n : Nat) : GroupSt := { insts := [(0, { contribs := [(0, 5)], begun := true, vals := [(0, { els := [1] })], stall := n })] }

theorem test_witness_GroupStates :
    let new (s : State) (v : Word) := (((s.setRec (groupRec 0) 12 4 (bits v 12 4)).setRec (groupRec 0) 16 8 (bits v 16 8)).setRec (groupRec 0) 6 1 (bits v 6 1))
    let s := group0 1 [] (stalled 2)
    (∀ k ∈ [0, 1, 2], (group0 k).writesFor .joinery ((group0 k).groupPart 0) = true ∧ (group0 k).groupState 0 = k)
      ∧ (group0 0).writesFor (.part 1) ((group0 0).groupPart 0) = false
      ∧ (new (group0 0) 0x20004).currentOk 0 = true ∧ bit (0x20004 : Word) 3 = false ∧ bit (0x20004 : Word) 4 = false
      ∧ (new (group0 0 [(0x1000, 0, 32, 1)]) 0x20004).currentOk 0 = false
      ∧ bits (0x20048 : Word) 6 1 = 1 ∧ (new (group0 1) 0x20008).nextOk 0 = true ∧ bit (0x20008 : Word) 4 = false
      ∧ bits (0x20008 : Word) 6 1 = 0 ∧ (new (group0 1 [(0xF000120018, 16, 16, 0)]) 0x20008).nextOk 0 = false
      ∧ s.inst? 0 0 = some { contribs := [(0, 5)], begun := true, vals := [(0, { els := [1] })], stall := 2 }
      ∧ s.instOpen 0 { contribs := [(0, 5)], begun := true, vals := [(0, { els := [1] })], stall := 2 } = true ∧ s.gf 0 0 16 8 = 2
      ∧ s.shut = [] := by decide +kernel

/-- R321: the group becomes READY, and not when its current map is wrong. -/
theorem test_groupEnable :
    after (exec (.groupEnable .joinery 0 0x20004) (group0 0)) (fun u => (u.groupState 0, u.gf 0 0 5 1)) = some (1, 0)
    ∧ after (exec (.groupEnable .joinery 0 0x20004) (group0 0 [(0x1000, 0, 32, 1)])) (fun u => (u.groupState 0, u.gf 0 0 5 1)) = some (0, 1) := by
  decide +kernel

/-! ### Isaryn links -/

/-- Port 0 in state `st`, with LNK_CTL 3. -/
def link0 (st : LnkState) (more : Tab Word := []) (x : Port := {}) : State :=
  { regs := (lnkBase 0, 3) :: owned ++ more, ports := [(0, { x with st := st })], start := { ready := true }, now4 := 100000 }

theorem test_witness_LinkLayer_states :
    let b := lnkBase 0
    Requester.h0 ≠ .joinery ∧ ((link0 .off).port 0).st = .off ∧ ((link0 .cal).port 0).st = .cal ∧ bit (3 : Word) 2 = false ∧ bit (3 : Word) 3 = false
      ∧ ((link0 .up).port 0).st = .up ∧ ((link0 .down).port 0).st = .down ∧ (link0 .down).fld b 0 1 = 1 ∧ (link0 .up).fld b 0 1 = 1
      ∧ bit ((link0 .down).reg b) 1 = true ∧ ((link0 .seek).port 0).st = .seek ∧ (23 : Fin 53).val < 24 ∧ 24 ≤ (24 : Fin 53).val
      ∧ (link0 .seek [(b + 0x20, 0x3000), (b + 0x24, 0x1000)]).fld (b + 0x20) 0 15 + 0x1000 = 16384
      ∧ 16384 < (link0 .seek [(b + 0x20, 0x4000), (b + 0x24, 1)]).fld (b + 0x20) 0 15 + 1
      ∧ ((link0 .train).port 0).st = .train ∧ buildMap (((link0 .train).port 0).rxFailed ||| 0) ≠ []
      ∧ buildMap (((link0 .train [] { rxFailed := BitVec.allOnes 52 }).port 0).rxFailed ||| 0) = [] := by decide +kernel

/-- R410: 23 lanes are too few, 24 lock. -/
theorem test_partnerLock : after (exec (.partnerLock 0 23) (link0 .seek)) (fun u => (u.port 0).st) = some .seek
    ∧ after (exec (.partnerLock 0 24) (link0 .seek)) (fun u => (u.port 0).st) = some .train := by decide +kernel

/-- The bytes of a number are those of its remainder. -/
theorem toBytes_mod (n v : Nat) : toBytes n (v % 256 ^ n) = toBytes n v := by
  induction n generalizing v with
  | zero => rfl
  | succ n ih =>
    have e : v % 256 ^ (n + 1) / 256 = v / 256 % 256 ^ n := by
      rw [Nat.pow_succ, Nat.mul_comm (256 ^ n), Nat.mod_mul_right_div_self]
    have e2 : BitVec.ofNat 8 (v % 256 ^ (n + 1)) = BitVec.ofNat 8 v := by
      apply BitVec.eq_of_toNat_eq
      simp only [BitVec.toNat_ofNat]
      exact Nat.mod_mod_of_dvd v ⟨256 ^ n, by rw [Nat.pow_succ, Nat.mul_comm]⟩
    simp only [toBytes, e, e2, ih]

theorem toBytes_of_mod {n a b : Nat} (h : a % 2 ^ (8 * n) = b % 2 ^ (8 * n)) : toBytes n a = toBytes n b := by
  have e : 2 ^ (8 * n) = 256 ^ n := Nat.pow_mul 2 8 n
  rw [← toBytes_mod n a, ← toBytes_mod n b, ← e, h]

/-- A sum of 32 bits. -/
theorem crc32_lt (bs : List Byte) : crc32 bs < 2 ^ 32 := by
  have step : ∀ c : Nat, c < 2 ^ 32 → (if c % 2 = 1 then (c / 2) ^^^ 0xEDB88320 else c / 2) < 2 ^ 32 := by
    intro c hc
    have h2 : c / 2 < 2 ^ 32 := by omega
    split
    · exact Nat.xor_lt_two_pow h2 (by decide)
    · exact h2
  have inner : ∀ (l : List Nat) (c : Nat), c < 2 ^ 32 →
      l.foldl (fun c _ => if c % 2 = 1 then (c / 2) ^^^ 0xEDB88320 else c / 2) c < 2 ^ 32 := by
    intro l
    induction l with
    | nil => exact fun c h => h
    | cons _ l ih => exact fun c h => ih _ (step c h)
  have outer : ∀ (l : List Byte) (c : Nat), c < 2 ^ 32 →
      l.foldl (fun c b => (upTo 8).foldl (fun c _ => if c % 2 = 1 then (c / 2) ^^^ 0xEDB88320 else c / 2) (c ^^^ b.toNat)) c < 2 ^ 32 := by
    intro l
    induction l with
    | nil => exact fun c h => h
    | cons b l ih =>
      exact fun c h => ih _ (inner _ _ (Nat.xor_lt_two_pow h (Nat.lt_trans b.isLt (by decide))))
  exact Nat.xor_lt_two_pow (outer bs _ (by decide)) (by decide)

/-- A sealed flit is sound. -/
theorem crc32_sealFlit (n : Nat) (x : BitVec 2048) : crc32 (toBytes 252 (sealFlit n x).toNat) = flitCrc (sealFlit n x) := by
  show crc32 (toBytes 252 (setBits (setBits x 8 16 n) 2016 32 (crc32 (toBytes 252 (setBits x 8 16 n).toNat))).toNat)
    = bits (setBits (setBits x 8 16 n) 2016 32 (crc32 (toBytes 252 (setBits x 8 16 n).toNat))) 2016 32
  rw [bits_setBits_field _ _ _ _ (by decide), Nat.mod_eq_of_lt (crc32_lt _)]
  congr 1
  refine toBytes_of_mod ?_
  have := toNat_setBits_other (setBits x 8 16 n) 2016 32 (crc32 (toBytes 252 (setBits x 8 16 n).toNat)) 0 (8 * 252) (by decide)
  rwa [Nat.pow_zero, Nat.div_one, Nat.div_one] at this

/-- A flit of one fragment. -/
def flit0 : BitVec 2048 := ((Frag.flits { dest := 0, src := 7, kind := 0, mtag := 3, addr := 0x1000, data := [1, 2, 3] } 3).headD 0)

theorem test_witness_LinkLayer_frames :
    let x := link0 .up [] { size := [(3, 8)], peerSize := [(3, 100)] }
    let ctl : BitVec 2048 := BitVec.ofNat 2048 (4 * 2 ^ 40)
    let f := sealFlit 0 flit0
    let o : OutFrag := { flits := [flit0] }
    let sent := link0 .up [] { lastBeat := 99000, outq := [(3, [o])], cred := [(3, 0)], peerSize := [(3, 100)] }
    let many := link0 .up [] { rxFailed := BitVec.ofNat 52 (2 ^ 28 - 1) }
    (x.port 0).st = .up ∧ bits ctl 16 16 = (x.port 0).nextSeq ∧ bit ctl 32 = false 
      ∧ flitType f = 1 ∧ flitSeq f = (x.port 0).expSeq ∧ flitSeq (sealFlit 5 flit0) ≠ (x.port 0).expSeq ∧ flitVc f = 3
      ∧ x.rec_ (portRec 0 + 8) 1 1 = 0 ∧ ((x.port 0).rx.get [] 3).length < (x.port 0).size.get 0 3
      ∧ x.badFrag (([] ++ [f]).drop (lastStart ([] ++ [f]))) = false
      ∧ (x.port 0).lastBeat + 3960 ≤ x.now4 ∧ sent.now4 < (sent.port 0).lastBeat + 3960 ∧ (sent.port 0).resend = [] ∧ (sent.port 0).ctl = []
      ∧ sent.nextVc 0 = some 3 ∧ (sent.port 0).outq.get [] 3 = [o] ∧ o.flits.head? = some flit0
      ∧ (x.port 0).misses + 1 < 4 ∧ 4 ≤ ((link0 .up [] { misses := 3 }).port 0).misses + 1
      ∧ ((link0 .up [] { retry := [{ flit := flit0, seq := 0 }], goBacks := 15 }).port 0).retry ≠ []
      ∧ (x.port 0).rxFailed.getLsbD 0 = false ∧ (many.port 0).rxFailed.getLsbD 0 = true
      ∧ buildMap ((x.port 0).rxFailed ||| BitVec.ofNat 52 (2 ^ 0)) ≠ []
      ∧ (many.port 0).rxFailed.getLsbD 28 = false ∧ buildMap ((many.port 0).rxFailed ||| BitVec.ofNat 52 (2 ^ 28)) = [] := by decide +kernel

/-! ### Isaryn messages -/

/-- Module 0 of a ring on ports 0 and 1, in turn 200; its write window 0 is open to all. The fragment `f` has come on port 0, VC 3. -/
def msg0 (f : Frag) (ws : List (Nat × Nat) := []) (m : MsgSt := {}) (log : Tab LCore := []) : State :=
  { base (ws ++ [(0xF000140000, 1), (0xF000140008, 3), (0xF000140800, 0xF), (0xF000140808, 0x10000), (0xF000140810, 0x10000)]) with
    turn := { running := true, num := 50, ticks := 200 }, msg := m, log := log,
    ports := [(0, { st := .up, rx := [(3, f.flits 3)], size := [(3, 100)], peerSize := [(3, 1000)] }), (1, { st := .up })] }

/-- A fragment from module 1. -/
def frag (kind arg : Nat) (addr : Nat := 0x10010) (data : List Byte := [1, 2, 3, 4]) (nfrag : Nat := 0) (epoch : Nat := 0) : Frag :=
  { dest := 0, src := 1, kind := kind, mtag := 7, arg := arg, addr := addr, data := data, nfrag := nfrag, epoch := epoch }

/-- The fragment at the head. -/
def hd (s : State) : Frag := fragOf ((s.headFlits 0 3).getD [])

/-- It is for this module and has kind `k`. -/
abbrev atHd (s : State) (k : Nat) : Prop := (s.headFlits 0 3).isSome = true ∧ (hd s).dest = s.myId ∧ (hd s).kind = k

theorem test_witness_headFrag {s : State} {k : Nat} (h : atHd s k) : headFrag s 0 3 k (hd s) := by
  obtain ⟨h1, h2, h3⟩ := h
  obtain ⟨fs, hf⟩ := Option.isSome_iff_exists.mp h1
  exact ⟨fs, hf, by rw [hd, hf]; rfl, h2, h3⟩

/-- Parts of mayTake and of whole1 that can be decided as they stand. -/
abbrev takes (s : State) : Prop := s.msg.tombs = [] ∧ s.msg.dead = [] ∧ (hd s).res = false ∧ s.msg.ctxs.length < 16384
  ∧ (hd s).prov = false

theorem test_witness_mayTake {s : State} (h : takes s) : mayTake s (hd s) := by
  obtain ⟨a, b, r, c, d⟩ := h
  exact ⟨by rw [a]; rfl, by rw [b]; rfl, .inr (.inl r), .inr c, .inl d⟩

theorem test_witness_whole1 {s : State} (h : s.msg.ctxs = []) (hn : (hd s).nfrag = 0) (hp : (hd s).prov = false) : whole1 s (hd s) :=
  ⟨by simp [State.ctx?, h], hn, hp⟩

theorem test_witness_Fragments :
    let w := msg0 (frag 0 0)
    let out := msg0 (frag 0 0 0x30000)
    let more := msg0 (frag 0 0 0x10010 [1, 2, 3, 4] 2)
    let dead := msg0 (frag 0 0) [] { tombs := [(1, 7, 190)] }
    let rd (a : Nat) := msg0 { frag 11 0x5000 a [] with readLen := some 8 }
    let none1 : State := { base with turn := { num := 50, ticks := 200 } }
    let res (k : Nat) := msg0 { frag k 0 with res := true }
    none1.headFlits 0 3 = none ∧ (∀ s ∈ [w, out, more, dead], atHd s 0) ∧ (∀ s ∈ [w, out, more], takes s ∧ (hd s).arg % 4 = 0)
      ∧ (hd w).addr = 0x10010 ∧ (hd w).data = [1, 2, 3, 4] ∧ w.window 1 2 0x10010 4 = some 0 ∧ w.inPart 0 0x10010 4 = true
      ∧ (hd out).addr = 0x30000 ∧ out.window 1 2 0x30000 4 = none ∧ dead.msg.tombs.any (sameMsg (hd dead).src (hd dead).mtag) = true
      ∧ w.msg.ctxs = [] ∧ (hd w).nfrag = 0 ∧ (hd more).nfrag ≠ 0 ∧ w.routePort w.myId 1 < 6 ∧ w.portReady (w.routePort w.myId 1) = true
      ∧ (∀ a ∈ [0x10010, 0x30010], atHd (rd a) 11 ∧ (hd (rd a)).readLen = some 8 ∧ (hd (rd a)).addr = a)
      ∧ (∀ k ∈ [0, 1, 2, 3], atHd (res k) k ∧ (hd (res k)).res = true ∧ (res k).isAligned = false ∧ (res k).msg.tombs = [] ∧ (res k).msg.dead = []
        ∧ (res k).msg.ctxs = [])
      ∧ (rd 0x10010).window 1 3 0x10010 8 = some 0 ∧ (rd 0x30010).window 1 3 0x30010 8 = none := by decide +kernel

theorem test_witness_Fragments_groups :
    let g : List (Nat × Nat) := [(0xF000120000, 2 + 3 * 2 ^ 32), (0xF000120018, 5 + 6 * 2 ^ 16)]
    let ga (e n : Nat) := msg0 (frag 1 (2 ^ 29 + 2 ^ 41 + 2 ^ 45) 0x10000 [1, 2, 3, 4] n e) g
    let tr (e : Nat) := msg0 (frag 2 0 0 [1, 2, 3, 4] 0 e) g
    (∀ e ∈ [4, 5, 6], atHd (ga e 2) 1 ∧ takes (ga e 2) ∧ atHd (tr e) 2 ∧ takes (tr e))
      ∧ (ga 4 2).epochIs 0 4 = .stale ∧ (ga 5 2).epochIs 0 5 = .now ∧ (ga 6 2).epochIs 0 6 = .next ∧ (tr 5).epochIs 0 5 = .now
      ∧ (hd (ga 5 2)).arg % 64 = 0 ∧ (hd (ga 5 2)).nfrag ≠ 0 ∧ (ga 5 2).shut = [] ∧ (hd (ga 5 2)).addr = 0x10000
      ∧ (ga 5 2).inPart ((ga 5 2).groupPart 0) 0x10000 8 = true
      ∧ (hd (tr 5)).arg / 2 ^ 36 % 2 = 0 ∧ (hd (tr 5)).frag = 0 ∧ (hd (tr 5)).nfrag = 0 := by decide +kernel

/-- The header and 128 bytes of hop `hop` of pass 0 of ring 0. -/
def hopData (hop kb : Nat) : List Byte :=
  toBytes 4 1 ++ toBytes 4 (0x22 * 16 + 5 * 2 ^ 16) ++ toBytes 4 (hop * 2 ^ 16) ++ toBytes 4 kb ++ List.replicate 240 0 ++ List.replicate 128 7

theorem test_witness_Fragments_rings :
    let r := 0xF000100000
    let ws : List (Nat × Nat) := [(r, 2 + 3 * 2 ^ 16 + 3 * 2 ^ 32), (r + 8, 1 + 2 ^ 32), (r + 0x10, 0x10000), (r + 0x18, 0x200 + 64 * 2 ^ 32),
      (r + 0x30, 2 + 5 * 2 ^ 16 + 0x22 * 2 ^ 32)]
    let f (hop kb e n : Nat) := msg0 (frag 3 0 0 (hopData hop kb) n e) ws
    let good := f 1 64 5 0
    let short := f 1 65 5 0
    let credit (e : Nat) := msg0 (frag 10 (e * 2 ^ 16 + 16) 0 []) ws
    (∀ s ∈ [good, short, f 1 64 4 0, f 1 64 5 2], atHd s 3 ∧ takes s ∧ (hd s).frag = 0)
      ∧ (let h (s : State) (off w : Nat) : Nat := ofBytes (((hd s).data.drop off).take w)
         good.ringLive 0 = true ∧ h good 4 4 % 16 = 0 ∧ (hd good).epoch = good.ringEpoch 0 ∧ (hd good).src = good.rf 0 0x0C 0 20
           ∧ (hd (f 1 64 4 0)).epoch ≠ (f 1 64 4 0).ringEpoch 0
           ∧ h good 4 4 / 16 % 256 = good.rf 0 0x34 0 8 ∧ h good 0x0C 4 = good.kBytes 0 ∧ h good 8 4 / 2 ^ 16 % 4096 ≤ good.ringHops 0
           ∧ h good 8 4 / 2 ^ 16 % 4096 = (good.ring 0).arrived + 1 ∧ h short 0x0C 4 ≠ short.kBytes 0)
      ∧ good.inPart (good.ringPart 0) (good.bufAddr 0 1 + fragMax * 0) 384 = true ∧ (hd good).nfrag = 0 ∧ (good.ring 0).await = false
      ∧ (hd (f 1 64 5 2)).nfrag ≠ 0
      ∧ (∀ e ∈ [4, 5], atHd (credit e) 10 ∧ (credit e).ringLive 0 = true ∧ (hd (credit e)).src = (credit e).rf 0 8 0 20)
      ∧ (hd (credit 5)).arg / 2 ^ 16 % 2 ^ 16 = (credit 5).ringEpoch 0 ∧ (hd (credit 4)).arg / 2 ^ 16 % 2 ^ 16 ≠ (credit 4).ringEpoch 0
      ∧ ((credit 5).ring 0).started ≤ ((credit 5).ring 0).sent := by decide +kernel

/-- R444: DONE ends the wait of its command; what came for a dead message is counted. -/
theorem test_done :
    let r : Run := { oneRun 0 with issuedAll := true, outstanding := 1 }
    after (exec (.done 0 3) (msg0 (frag 4 9 0 []) [] { out := [(4, { dest := 1, mtag := 9, port := 0, owner := .cmd 0 5 })] } [(0, { running := [r] })]))
      (fun u => (u.runOf 0 5).map (fun y => (y.done, y.status))) = some (some (true, 0)) := by decide +kernel

/-- An entry of the provisional table for message 9 of module 1. -/
def entry (confirmed complete : Bool) : ProvEnt := { src := 1, mtag := 9, n := 4, complete := complete, confirmed := confirmed, turn := 196 }

theorem test_witness_MessageEnds :
    let out (k : Nat) (m : Msg) := msg0 (frag k (9 + 2 ^ 16) 0 []) [] { out := [(4, m)] } [(0, { running := [oneRun 0] })]
    let m : Msg := { dest := 1, mtag := 9, port := 0, owner := .cmd 0 5, sentTurn := some 134 }
    let pr : Msg := { m with prov := true, cmds := [3] }
    let prov (k : Nat) (e : ProvEnt) : State := { msg0 (frag k 9 0 []) with sill := { prov := [(2, e)], nextProv := 3 } }
    (∀ k ∈ [4, 5], atHd (out k m) k ∧ (out k m).msgKey 1 9 = some 4 ∧ (out k m).msg.out.find? 4 = some m ∧ (msg0 (frag k 8 0 [])).msgKey 1 8 = none
        ∧ (out k pr).msgKey 1 9 = some 4)
      ∧ (hd (out 4 m)).arg % 2 ^ 16 = 9 ∧ (hd (out 5 m)).arg / 2 ^ 16 % 2 ^ 20 = 1 ∧ (hd (out 4 m)).src = 1
      ∧ m.mtag = (9 : Fin 65536).val ∧ m.done = false ∧ 134 + 66 ≤ (out 4 m).turn.ticks ∧ ¬ 135 + 66 ≤ (out 4 m).turn.ticks
      ∧ (∀ b ∈ [true, false], atHd (prov 6 (entry false b)) 6 ∧ (prov 6 (entry false b)).provKey 1 9 = some 2
          ∧ ((prov 6 (entry false b)).sill.prov.get {} 2).complete = b)
      ∧ (prov 6 { entry false true with turn := 197 }).turn.ticks < 197 + 4
      ∧ (msg0 (frag 6 9 0 [])).provKey 1 9 = none ∧ (msg0 (frag 6 9 0 [])).provRoom = true
      ∧ (msg0 (frag 6 9 0 []) [] { dead := [(1, 9, 190)] }).msg.dead.any (sameMsg 1 9) = true
      ∧ atHd (prov 7 (entry false false)) 7
      ∧ (prov 7 (entry false false)).sill.prov.find? 2 = some (entry false false) ∧ (entry false false).turn + 4 ≤ (prov 7 (entry false false)).turn.ticks
      ∧ (entry true false).confirmed = true := by decide +kernel

theorem test_witness_MessageEnds_contexts :
    let s (t : Nat) := msg0 (frag 0 0) [] { ctxs := [{ src := 1, mtag := 9, turn := t }] }
    (s 136).ctx? 1 9 = some { src := 1, mtag := 9, turn := 136 } ∧ 136 + 64 ≤ (s 136).turn.ticks ∧ (s 137).turn.ticks < 137 + 64 := ⟨rfl, by decide, by decide⟩

/-- The provisional table is full with 4,096 entries. -/
theorem test_witness_MessageEnds_full : ({ msg0 (frag 6 9 0 []) with sill := { prov := (List.range 4096).map (fun i => (i, { mtag := 100 + i })) } }).provRoom = false := by
  decide +kernel

theorem test_witness_MessageLayer :
    let s := msg0 (frag 0 0)
    let off : State := { base with turn := { num := 50, ticks := 200 } }
    let win (a : Nat) := recs base [(0xF000140808, 0, 48, a), (0xF000140810, 0, 48, 0x1000)]
    let away (dest : Nat) := msg0 { frag 0 0 with dest := dest }
    let far := away 1
    let busy : State := { far with ports := [(0, { (far.port 0) with outq := [(3, [{ flits := [] }])] }), (1, { st := .up, outq := [(3, [{ flits := [] }])] })] }
    let down : State := { far with ports := [(0, { (far.port 0) with st := .down }), (1, { st := .down })] }
    Writer.host 0 ≠ .joinery ∧ bit (1 : Byte) 0 = true ∧ off.rec_ msgCtl 0 1 = 0 ∧ s.rec_ msgCtl 0 1 = 1 ∧ bit (0 : Byte) 0 = false
      ∧ s.writesFor (.part 1) (s.rec_ (winRec 0) 12 4) = false ∧ (win 0).writesFor .joinery ((win 0).rec_ (winRec 0) 12 4) = true
      ∧ bit (1 : Word) 0 = true ∧ (win 0).rec_ (winRec 0) 0 1 = 0 ∧ s.rec_ (winRec 0) 0 1 = 1
      ∧ (win 0x1000).inPart 0 0x1000 0x1000 = true ∧ (win (2 ^ 32)).inPart 0 (2 ^ 32) 0x1000 = false
      ∧ (hd s).dest = s.myId ∧ (∀ x ∈ [far, busy, down], (x.headFlits 0 3).isSome = true ∧ (hd x).dest ≠ x.myId ∧ x.routePort x.myId 1 < 6)
      ∧ far.portReady (far.routePort far.myId 1) = true ∧ busy.portReady (busy.routePort busy.myId 1) = true
      ∧ down.portReady (down.routePort down.myId 1) = false
      ∧ (far.port (far.routePort far.myId 1)).outq.get [] 3 = [] ∧ (busy.port (busy.routePort busy.myId 1)).outq.get [] 3 ≠ [] := by decide +kernel

/-! ### Host ports and pre-emption -/

/-- A ready machine; host port 0 is as given. -/
def host0 (h : HostPort := {}) : State :=
  { regs := owned, start := { ready := true, input := true }, host := { ports := [(0, h)] }, mem := [(0x1000, 5), (0x1001, 6), (0x1008, 7), (0xF000200000, 1)] }

theorem test_witness_PortResets :
    let s (st : QState) (en : Word) : State :=
      { regs := (0x100000, en) :: owned ++ [(0x200000, 5)], start := { ready := true, input := true }, host := { queues := [(0, { st := st })] } }
    (s .active 1).turn.progs = [] ∧ (s .active 1).host.reads = [] ∧ (s .active 1).log = [] ∧ (s .active 1).qOwner 0 = (0 : Fin 2) + 1
      ∧ ((s .active 1).queue 0).st ≠ .off ∧ (s .active 1).fld (hqBase 0) 0 1 = 1 ∧ ((s .draining 0).queue 0).st ≠ .off
      ∧ (s .active 1).qOwner 0 ≠ (1 : Fin 2) + 1 ∧ ((s .off 1).queue 0).st = .off ∧ (s .active 1).seqIn 1 = []
      ∧ (s .active 1).start.ready = true ∧ State.reset.start.ready = false ∧ 0xFFFF < 0x10000 := by decide +kernel

theorem test_witness_HostAccess :
    let s := host0
    let bad : State := { s with poison := [(0x40, ())] }
    let starts : State := { s with start := { input := true, kind := 1 } }
    s.portsLive = true ∧ s.hears (Requester.ofPort (0 : Fin 2)) = true ∧ starts.portsLive = true ∧ starts.start.ready = false ∧ starts.start.kind ≠ 2
      ∧ starts.hears (Requester.ofPort (0 : Fin 2)) = false ∧ (10 : Word).toNat ≤ 10 ∧ bits (3 : Word) 0 2 = 3
      ∧ s.bar2Target 0 0x1000 8 = .hbm 0 0x1000 ∧ 0x1000 % 8 = 0 ∧ s.poisoned (0x1000 / 64) = false ∧ s.pcState (hbmMap (64 * 0x40)).pc ≠ 3
      ∧ s.peekN 0x1000 8 = 0x605 ∧ 0x605 ≠ (1 : Dword).toNat % 2 ^ 64 ∧ bad.bar2Target 0 0x1000 8 = .hbm 0 0x1000
      ∧ bad.poisoned (0x1000 / 64) = true ∧ (∃ q ∈ [0], s.bar2Target 0 0x1004 8 = .hbm q 0x1004) ∧ 0x1004 % 8 ≠ 0
      ∧ (let r := host0 { wbase := 0xF000000000, bar2Log := 10 }
         r.bar2Target 0 0x200000 4 = .record 0xF000200000)
      ∧ s.bar2Target 0 0x100000000 4 = .none := by decide +kernel

/-- R463, R465: a FetchAdd of 4 bytes at HBM address 0x1000, and a write with one byte enabled. -/
theorem test_bar2 :
    after (exec (.bar2Atomic 0 0x1000 .fetchAdd false 1 0) host0) (fun u => (u.peekN 0x1000 4, u.out.head?)) =
      some (0x606, some (.completion 0 .success [5, 6, 0, 0]))
    ∧ after (exec (.bar2Write 0 0x1000 [none, some 9]) host0) (fun u => u.peekN 0x1000 2) = some 0x905 := by decide +kernel

theorem test_witness_HostSignals :
    let page : List (Nat × Nat) := [(0x100040, 5), (0xF000110000, 1), (0xF000110020, 0x100000)]
    let s (use : HostReadUse) (m : Word := 0) : State :=
      { base page with
        regs := (0x100000, 1) :: owned ++ [(0x20000C, m), (0x208000, 1), (Reg.msxRoute 0, 0x1000)]
        host := { reads := [(4, { port := 0, addr := 0x40, len := 2, use := use })], queues := [(0, { st := .active, unrec := 3 })] } }
    let q := s (.ring 0 1 2)
    q.host.reads.find? 4 = some { port := 0, addr := 0x40, len := 2, use := .ring 0 1 2 } ∧ q.host.reads.find? 5 = none
      ∧ ([1] : List Byte).length ≠ 2 ∧ ([1, 2] : List Byte).length = 2 ∧ (q.queue 0).st = .active ∧ q.fld (hqBase 0) 0 1 = 1
      ∧ CplStatus.abort ≠ .success ∧ CplStatus.abort ≠ .retry
      ∧ ((s (.xfer 0 5 0 0)).host.reads.find? 4).isSome = true ∧ (({ s (.xfer 0 5 0 0) with log := [(0, { running := [oneRun 0] })] } : State).runOf 0 5).isSome = true
      ∧ (s (.pageReturn 0 2)).pageState 0 2 = 5 ∧ q.hears (Requester.ofPort (0 : Fin 2)) = true
      ∧ ({ q with start := {} }).hears (Requester.ofPort (0 : Fin 2)) = false
      ∧ q.fld (pbaReg 0 0) 0 1 = 1 ∧ q.fld (pbaReg 0 1) 1 1 = 0 ∧ (q.hport 0).funcMask = false
      ∧ Requester.h0.port? = some 0 ∧ q.hears .h0 = true ∧ bits (0x1003 : Word) 11 1 = 0 ∧ bits (q.reg (Reg.msxRoute 0)) 11 1 = 0
      ∧ Requester.h1.port? = some 1 ∧ bit (q.reg (Reg.msxRoute 0)) 12 = true := by decide +kernel

/-- Core 0 in the pre-emption `x`; thread 0 is in state `st`. -/
def preempt (x : CorePre) (st : ThrState := .ready) (w : Wait := .none) : State :=
  { regs := owned, start := { ready := true }, pre := [(0, x)], log := [(0, { threads := [(0, { st := st, wait := w, regs := [(1, 4)] })] })] }

/-- What a save has kept. -/
def kept : Saved := { ctxs := [(0, { st := .ready, regs := [(1, 7)] }), (2, { st := .halted })], runs := [oneRun 0], bytes := 64 }

theorem test_witness_Preemption :
    let stop := preempt { st := .stopping }
    let again := preempt { st := .stopping, saved := some kept }
    let access := preempt { st := .stopping } .wait (.data (.loadUncached 8 1) 0 none)
    let saved := preempt { st := .saved, saved := some kept }
    let back := preempt { st := .restoring, saved := some kept }
    (stop.cpre 0).st = .stopping ∧ stop.enginesStopped 0 = true ∧ (stop.thread 0 (stop.cpre 0).thread).inAccess = false ∧ (stop.cpre 0).saved = none
      ∧ (again.cpre 0).saved = some kept ∧ again.enginesStopped 0 = true ∧ (access.thread 0 (access.cpre 0).thread).inAccess = true
      ∧ (preempt {}).cpre 0 = {} ∧ ((preempt { st := .saving }).cpre 0).st = .saving
      ∧ (saved.cpre 0).saved = some kept ∧ (saved.cpre 0).st = .saved ∧ saved.holder 0 = none ∧ saved.present 0 = true
      ∧ (∀ b ∈ blocksOf (saved.saveArea 0) 64, saved.poisoned b = false ∧ saved.pcState (hbmMap (64 * b)).pc ≠ 3)
      ∧ (∃ b ∈ blocksOf (saved.saveArea 0) 64, ({ saved with poison := [(saved.saveArea 0 / 64, ())] }).poisoned b = true)
      ∧ (back.cpre 0).saved = some kept ∧ (back.cpre 0).st = .restoring ∧ kept.ctxs.rising = true
      ∧ kept.ctxs.find? 0 = some { st := .ready, regs := [(1, 7)] } := by decide +kernel
/-! ### Sill and Shutter -/

theorem test_witness_IntegerGroup :
    let sum (c : Int) (ab : List (Int × Int)) : Int := c + (ab.map (fun p => p.1 * p.2)).sum;
    (-(2 ^ 31) ≤ sum 1 [(2, -3)]) ∧ sum 1 [(2, -3)] ≤ 2 ^ 31 - 1 ∧ ¬ sum (2 ^ 31 - 1) [(1, 1)] ≤ 2 ^ 31 - 1 := by decide

/-- A retired command with its footprints. -/
def ent (id : Nat) : SillEnt := { id := id, core := 0, ctx := .thread 2, reads := [(0x1000, 64)], writes := [(0x2000, 64)] }

/-- Panel 0's spare is its position 16; the fail limit is 3. -/
def sill0 (x : SillSt) (k : LCore := {}) : State :=
  { core0 k with regs := owned ++ [(Reg.silCtl, 0x6000), (Reg.silPanel 0, 64)], sill := x }

theorem test_witness_SillCommands :
    let q (w : SpareWork) : Spare := { work := w, queue := [(0, 5)] }
    let s (x : Spare) (ret : List SillEnt := [ent 5]) (k : LCore := { running := [oneRun 0] }) := sill0 { retired := ret, spares := [(0, x)] } k
    let gone (x : Spare) := s x [ent 5] {}
    let wait : Run := { cmd := cmd 9 (dsc [(0, 0, 8, 10)]) }
    let w (outs : List (Nat × Nat × Ctx × Nat)) (ret : List SillEnt := []) := sill0 { outcomes := outs, retired := ret } { running := [wait] }
    let twice := w [(4, 0, .thread 2, 0x31), (3, 0, .thread 2, 0x30), (2, 0, .thread 1, 0x17)]
    (s {}).sill.retired.find? (fun y => y.id == 5) = some (ent 5) ∧ ({ ent 5 with dup := true }).dup ≠ false
      ∧ ((ent 5).dup = false ∧ (ent 5).replay = false ∧ (ent 5).links = [] ∧ (∀ y ∈ (s {}).sill.retired, ¬ y.id < (ent 5).id))
      ∧ (s {}).sill.steps = [] ∧ ((s {}).spare 0).queue = []
      ∧ (∀ k ∈ [SpareWork.idle, .test 3, .dup 0 7, .replay 0 9], ((s (q k)).spare 0).queue = [(0, 5)] ∧ ((s (q k)).spare 0).work = k)
      ∧ (s {}).dupEnt 5 = false ∧ ({ s {} with sill := { retired := [{ ent 5 with replay := true }] } }).dupEnt 5 = true
      ∧ (s {}).runOf 0 5 = some (oneRun 0) ∧ (gone {}).runOf 0 5 = none ∧ Desc.cls (0 : Desc) ≠ 1 ∧ Desc.cls (0 : Desc) ≠ 2
      ∧ (∀ k ≤ 1, (s {}).fld (Reg.silCoreChk ((s {}).under 0)) 0 8 + k < (s {}).failLimit
          ∧ (s {}).fld (Reg.silCoreChk (((s {}).spareOf 0).getD ((s {}).under 0))) 0 8 + k < (s {}).failLimit)
      ∧ (let y : Redo := { core := 0, id := 5, at_ := 2, slot := {}, handle := some 7 }
         let p (t : State) := t.phy (t.under 0)
         let z (st : SlotState) : State := { gone {} with sill := { (gone {}).sill with redo := [y] }, phys := [((gone {}).under 0, { slots := [(2, { st := st })] })] }
         (∀ st ∈ [SlotState.free, .kept], (z st).sill.redo.filter (fun y => y.core == 0 && y.id == 5) = [y] ∧ (z st).runOf 0 5 = none
           ∧ (z st).dupEnt 5 = false ∧ ((p (z st)).slot y.at_).st = st) ∧ y.slot.pair = false)
      ∧ ((s {} [ent 5] { running := [{ oneRun 0 with replaying := true }] }).runOf 0 5).map Run.replaying = some true
      ∧ 4 < Desc.cls (dsc [(0, 0, 8, 5)]) ∧ (s {}).spareOf 0 = some 16
      ∧ (s {}).fld (coreWin 16 + 0x1008) 0 2 = 0 
      ∧ ({ s {} [{ ent 5 with dup := true, engines := [0] }] with regs := (coreWin 16 + 0x1008, 1) :: (s {}).regs } : State).fld (coreWin 16 + 0x1008) 0 2 ≠ 0
      ∧ ({ ent 5 with engines := [0] } : SillEnt).engines.contains 0 = true ∧ (ent 5).engines.contains 0 = false
      ∧ (oneRun 0).status = 0 ∧ (2 : Fin 3).val = 2 ∧ (1 : Fin 3).val < 2
      ∧ (w []).sillRun 0 0 0 = some wait ∧ (w [] [ent 4]).allCrossed 0 wait.cmd.ctx 9 = false ∧ (w []).allCrossed 0 wait.cmd.ctx 9 = true
      ∧ wait.status = 0 ∧ (w []).runOf 0 9 = some wait
      ∧ twice.sill.outcomes.filter (fun o => sameCtx o.2.1 o.2.2.1 0 wait.cmd.ctx && decide (o.1 < 9)) = [(4, 0, .thread 2, 0x31), (3, 0, .thread 2, 0x30)] := by
  decide +kernel

/-- Step record 0 in `st` at step 7 of group 0, of `size` modules, where this module has rank `rank`; `f` has come. -/
def step0 (st : Nat) (f : Frag) (x : Option StepRun := none) (k : LCore := {}) (rank : Nat := 0) (size : Nat := 2) : State :=
  let g := 0xF000120000
  let t := 0xF000150000
  let s := msg0 f [(0x1000, 2 ^ 32), (0x1008, 2 + 3 * 2 ^ 32), (g, 2), (g + 0x10, 0x1000)] {} [(0, k)]
  { recs s [(g, 0, 3, 2), (g + 4, 0, 12, size - 1), (g + 8, 0, 12, rank), (t, 0, 3, st), (t, 24, 8, 4), (t + 8, 0, 32, 7)] with
    sill := { steps := (match x with
      | some x => [(0, x)]
      | none => []) } }

/-- A READY or a COMMIT of step `n`. -/
def stepFrag (kind b n : Nat) : Frag := { frag kind (b + n * 2 ^ 32) 0 [] with data := [] }

/-- A record at work since turn `t`. -/
def stepRun (t : Nat) (own : Option Nat := none) (got : Tab Nat := []) (sentFail : Bool := false) : StepRun :=
  { core := 0, id := 5, own := own, got := got, collectTurn := t, sentTurn := t, sentFail := sentFail }

theorem test_witness_StepTree :
    let r (n : Nat) : Run := { cmd := cmd 5 (dsc [(0, 0, 8, 10), (0x10, 0, 2, 1), (0x14, 0, 32, n)]) }
    let go (st n : Nat) (q : List Cmd := []) := step0 st (stepFrag 8 0 7) none { running := [r n], queue := q }
    let rd (st n : Nat) (x : Option StepRun := none) := step0 st (stepFrag 8 0 n) x
    let cm (st n : Nat) := step0 st (stepFrag 9 0 n)
    let kid (x : StepRun) (st : Nat := 1) (rank : Nat := 0) (size : Nat := 2) := step0 st (stepFrag 8 0 7) (some x) {} rank size
    (∀ y ∈ [(0, 7), (1, 7), (0, 6)], (go y.1 y.2).sillRun 0 0 1 = some (r y.2) ∧ Desc.f (r y.2).cmd.desc 0x10 4 4 = 0
        ∧ (go y.1 y.2).runOf 0 5 = some (r y.2) ∧ (r y.2).status = 0 ∧ (go y.1 y.2).stepState 0 = y.1 ∧ (go y.1 y.2).stf 0 8 0 32 = 7
        ∧ Desc.f (r y.2).cmd.desc 0x14 0 32 = y.2)
      ∧ (go 0 7 [cmd 4 0]).allCrossed 0 (r 7).cmd.ctx 5 = false
      ∧ (∀ y ∈ [(0, 7), (1, 7), (0, 6), (2, 7)], atHd (rd y.1 y.2) 8 ∧ atHd (cm y.1 y.2) 9 ∧ (hd (rd y.1 y.2)).arg / 2 ^ 32 = y.2
          ∧ (hd (rd y.1 y.2)).arg % 16 = 0 ∧ (hd (cm y.1 y.2)).arg % 16 = 0 ∧ (hd (cm y.1 y.2)).arg / 2 ^ 32 = y.2)
      ∧ (rd 0 7).rankId ((rd 0 7).stepGroup 0) 1 = (hd (rd 0 7)).src ∧ treeChildren ((rd 0 7).treeSize ((rd 0 7).stepGroup 0)) ((rd 0 7).myRank 0 0) = [1]
      ∧ (∀ x ∈ [stepRun 196, stepRun 190 (some 0), stepRun 197], (rd 1 7 (some x)).sill.steps.find? 0 = some x)
      ∧ [1].find? (fun k => (rd 1 7).rankId 0 k == (hd (rd 1 7)).src) = some 1 ∧ (rd 1 7).runOf 0 5 = none
      ∧ (∀ x ∈ [stepRun 190, stepRun 190 none [(1, 7 * 2 ^ 32)], stepRun 197, stepRun 190 none [] true], (kid x).sill.steps.find? 0 = some x
          ∧ (kid x 2).sill.steps.find? 0 = some x ∧ (kid x 2).stepState 0 = 2)
      ∧ 196 + (kid (stepRun 196)).stf 0 0x0 24 8 ≤ (kid (stepRun 196)).turn.ticks ∧ ¬ 197 + (kid (stepRun 197)).stf 0 0x0 24 8 ≤ (kid (stepRun 197)).turn.ticks
      ∧ (kid (stepRun 190)).myRank ((kid (stepRun 190)).stepGroup 0) 0 = 0
      ∧ (let y := kid (stepRun 190) 1 2 4
         y.myRank (y.stepGroup 0) 0 = 2 ∧ treeChildren (y.treeSize (y.stepGroup 0)) 2 = [3] ∧ y.stepState 0 = 1)
      ∧ (cm 3 7).writesFor .joinery ((cm 3 7).stf 0 0 12 4) = true ∧ (cm 3 7).stepState 0 = 3 ∧ (∀ o ∈ [1, 2, 3], bits (BitVec.ofNat 32 (8 * o)) 3 3 = o)
      ∧ (cm 3 7).writesFor (.part 1) ((cm 3 7).stf 0 0 12 4) = false := by decide +kernel

theorem test_witness_RollingTest :
    let s (spare : Nat) (req : Word) (x : Spare := {}) (k : LCore := { yield := some 0 }) (cm : Tab (Option Nat) := []) : State :=
      { regs := owned ++ [(Reg.silCtl, 0x6000), (Reg.silPanel 0, BitVec.ofNat 32 (spare * 4)), (Reg.silPanel 0 + 4, req)],
        sill := { spares := [(0, x)] }, log := [(3, k)], start := { ready := true, input := true }, coreMap := cm }
    let a := s 16 8
    let no : State := { a with pre := [(3, { st := .stopping })] }
    a.nextTest 0 = some 3 ∧ a.spareOf 0 = some 16 ∧ (a.spare 0).work = .idle ∧ (a.spare 0).queue = [] ∧ a.logOf 3 = some 3 ∧ a.atPoint 3 = true
      ∧ no.atPoint 3 = false ∧ no.logOf 3 = some 3 ∧ no.nextTest 0 = some 3
      ∧ (s 3 8 {} {} [(3, none)]).logOf 3 = none ∧ (s 3 8 {} {} [(3, none)]).spareOf 0 = some 3 ∧ (s 3 8 {} {} [(3, none)]).nextTest 0 = some 3
      ∧ (s 16 0).nextTest 0 = none ∧ ((s 31 0 { work := .test 16 }).spare 0).work = .test 16
      ∧ a.hears .joinery = true ∧ ({ a with start := {} }).hears .h0 = false := by decide +kernel

/-- Shutter record 0 in `st`, for step 7 of group 0 of three copies; core 0 runs `r`. -/
def shut0 (st : Nat) (r : Run := oneRun 0) (m : List (Nat × Nat × Nat × Nat) := []) (x : Option ShutSt := none) : State :=
  let h := 0xF000160000
  let s := msg0 (frag 0 0) [(0x1000, 2 ^ 32), (0x1008, 2 + 3 * 2 ^ 32), (0x2000, 2 ^ 16 + 2 * 2 ^ 32 + 3 * 2 ^ 48), (0x10000, 5),
    (0xF000120000, 1 + 3 * 2 ^ 32), (0xF000120010, 0x1000)] {} [(0, { running := [r] })]
  { recs s ([(h, 0, 2, st), (h + 4, 0, 12, 2), (h + 4, 12, 12, 2), (h + 8, 0, 48, 0x10000), (h + 0x10, 0, 48, 0x2000), (h + 0x18, 0, 32, 1),
      (h + 0x1C, 0, 32, 1), (h + 0x20, 0, 9, 1), (h + 0x28, 0, 32, 7), (h + 0x2C, 0, 32, 7)] ++ m) with
    shut := (match x with
      | some x => [(0, x)]
      | none => []) }

/-- The Shutter command `op` of step `n`. -/
def shutRun (op n : Nat) (m : List (Nat × Nat × Nat × Nat) := []) : Run :=
  { cmd := cmd 5 (dsc ([(0, 0, 8, 9), (0x10, 0, 3, op), (0x14, 0, 32, n), (0x18, 0, 64, 0x5000)] ++ m)) }

theorem test_witness_Shutter :
    let h := 0xF000160000
    let last : ShutSt := { last := some (0x10000, 1, 1, 1, 2) }
    let banks : List (Nat × Nat × Nat × Nat) := [(h + 0x38, 0, 2, 3), (h + 0x48, 0, 2, 0), (h, 5, 1, 1)]
    let s (st : Nat) := shut0 st (oneRun 0) banks (some last)
    let at_ (op n st : Nat) (m : List (Nat × Nat × Nat × Nat) := []) := shut0 st (shutRun op n m) banks
    let cap : List (Nat × Nat × Nat × Nat) := [(0x28, 0, 6, 3), (0x28, 6, 10, 4), (0x30, 0, 32, 9)]
    let to1 : List (Nat × Nat × Nat × Nat) := [(0x2C, 0, 20, 1)]
    (s 0).writesFor .joinery ((s 0).shutPart 0) = true ∧ (s 0).writesFor (.part 1) ((s 0).shutPart 0) = false
      ∧ (s 0).shutState 0 = 0 ∧ (s 1).shutState 0 = 1 ∧ (s 0).shutOk 0 = true ∧ (shut0 0 (oneRun 0) [(h + 4, 0, 12, 1)]).shutOk 0 = false
      ∧ ((s 0).shutter 0).last = some ((s 0).hf 0 8 0 48, (s 0).hf 0 0x18 0 32, (s 0).hf 0 0x1C 0 32, (s 0).hf 0 0x20 0 9, (s 0).keptPos 0)
      ∧ (s 0).bankState 0 0 = 3 ∧ (s 0).bankState 0 1 = 0
      ∧ (∀ op ∈ [0, 1, 2, 3, 4], (at_ op 7 2).shutRun 0 0 op = some (shutRun op 7) ∧ (at_ op 7 2).runOf 0 5 = some (shutRun op 7)
          ∧ (shutRun op 7).status = 0 ∧ shutIdx (shutRun op 7).cmd.desc = 0 ∧ Desc.f (shutRun op 7).cmd.desc 0x14 0 32 = 7)
      ∧ ((at_ 0 7 2).shutter 0).bank < 2 ∧ (at_ 0 7 2).shut = [] ∧ (at_ 0 7 2).inPart 0 0x5000 8 = true
      ∧ (at_ 0 7 2).shutState 0 = 2 ∧ (at_ 0 7 2).hf 0 0x2C 0 32 = 7 ∧ (at_ 0 7 1).hf 0 0x28 0 32 ≤ 7 ∧ (at_ 0 7 1).shutState 0 = 1
      ∧ (at_ 0 6 1).shutState 0 = 1 ∧ ¬ (at_ 0 6 1).hf 0 0x28 0 32 ≤ 6
      ∧ (at_ 1 7 2 cap).taking 0 7 = true ∧ (at_ 1 8 2 cap).taking 0 8 = false ∧ (at_ 1 7 2 cap).msg.ctxs = [] ∧ (at_ 1 7 2 cap).inst? 3 4 = none
      ∧ ({ at_ 1 7 2 cap with groups := { insts := [(3 * 1024 + 4, { got := [(at_ 1 7 2 cap).keeps 0] })] } }).inst? 3 4
          = some { got := [(at_ 1 7 2 cap).keeps 0] }
      ∧ (at_ 2 7 2).hf 0 0x1C 0 32 ≠ 0 ∧ (shut0 2 (shutRun 2 7) [(h + 0x1C, 0, 32, 0), (h + 0x20, 0, 9, 0)]).hf 0 0x1C 0 32 = 0
      ∧ (at_ 2 7 2).routePort (at_ 2 7 2).myId ((at_ 2 7 2).replicaId ((at_ 2 7 2).shutGroup 0) ((at_ 2 7 2).keeperPos 0)) < 6
      ∧ (at_ 2 7 2).portReady ((at_ 2 7 2).routePort (at_ 2 7 2).myId ((at_ 2 7 2).replicaId ((at_ 2 7 2).shutGroup 0) ((at_ 2 7 2).keeperPos 0))) = true
      ∧ (at_ 3 7 2 to1).bankState 0 0 = 3 ∧ (at_ 3 7 2 [(0x10, 5, 1, 1)]).bankState 0 1 ≠ 3 ∧ (at_ 3 7 2 to1).bankPart 0 (shutRun 3 7 to1).cmd.desc ≠ 0
      ∧ Desc.f (shutRun 3 7 to1).cmd.desc 0x2C 0 20 = 1 ∧ (at_ 3 7 2 to1).portReady ((at_ 3 7 2 to1).routePort (at_ 3 7 2 to1).myId 1) = true
      ∧ (let y := at_ 4 7 2
         let n := y.bankPart 0 (shutRun 4 7).cmd.desc
         y.hf 0 0 5 1 = 1 ∧ y.inPart 0 (y.bankAddr 0 0) n = true
           ∧ ∀ k ∈ List.range ((y.bankAddr 0 0 + n) / 64 + 1 - y.bankAddr 0 0 / 64), y.poisoned (y.bankAddr 0 0 / 64 + k) = false) := by decide +kernel

theorem test_witness_Shutter_stacksUp (st : Nat) (r : Run) (m : List (Nat × Nat × Nat × Nat)) (x : Option ShutSt) :
    stacksUp (shut0 st r m x) :=
  stacksUp_owned (by simp only [shut0, recs_regs, msg0, base])
/-! ### Starts, trust, management and registers -/

/-- A module in the start state `x`. -/
def mod0 (x : StartSt) (f : FlashSt := {}) (shutdown : Bool := false) (more : Tab Word := []) : State :=
  { start := x, flash := f, regs := owned ++ more, flt := { shutdown := shutdown }, mem := [(4, 1)] }

theorem test_witness_Starts :
    let up := mod0 { input := true, ready := true, kind := 1 }
    (mod0 {}).start.input = false ∧ up.start.input = true ∧ up.start.ready = true ∧ up.flt.shutdown = false ∧ (mod0 {}).start.ready = false
      ∧ (mod0 { up.start with ready := true } {} true).flt.shutdown = true
      ∧ (∀ k ∈ [0, 1], (mod0 { input := true, busy := true, step := 3, kind := k }).start.busy = true
          ∧ (mod0 { input := true, busy := true, step := 3, kind := k }).start.dieOff = false)
      ∧ (mod0 { input := true, dieOff := true }).start.dieOff = true ∧ up.start.dieOff = false ∧ up.start.busy = false
      ∧ (∀ op ∈ [1, 2], (mod0 { input := true, rec_ := { state := 1, pass := 2, op := op } }).start.rec_.state = 1
          ∧ 2 ≤ (mod0 { input := true, rec_ := { state := 1, pass := 2, op := op } }).start.rec_.pass)
      ∧ (mod0 { input := true, rec_ := { state := 1, pass := 1 } }).start.rec_.pass < 2 := by decide

theorem test_witness_RestartsAndRecovery :
    let s (v : Word) (r : Requester := .joinery) (more : Tab Word := []) : State :=
      { mod0 { input := true, ready := true } {} false more with latch := { db := some { reg := .strRestart, val := v, by_ := r } } }
    let rc (n : Word) (k : Nat := 2) := mod0 { input := true, kind := k } {} false [(Reg.recLen, n)]
    (∀ v ∈ [0, 1, 2, 3], (s (BitVec.ofNat 32 v)).latch.db = some { reg := .strRestart, val := BitVec.ofNat 32 v, by_ := .joinery } ∧ bits (BitVec.ofNat 32 v) 0 2 = v)
      ∧ (s 1).hears .joinery = true ∧ (s 1 .h1).hears .h1 = true ∧ (s 1 .h1).latch.db = some { reg := .strRestart, val := 1, by_ := .h1 } ∧ (s 1).mayRestart .joinery = true ∧ (s 1 .h1).mayRestart .h1 = false ∧ (0 : Word) ≠ ~~~(1 : Word)
      ∧ (s 1).start.ready = true ∧ (s 1).flt.shutdown = false ∧ (s 2).someFatal = false ∧ (s 2 .joinery [(Reg.fltSensor 3, 0x300000)]).someFatal = true
      ∧ (rc 4096).recTakes = true ∧ (rc 4096 0).recTakes = false ∧ ((rc 4097).reg Reg.recLen).toNat % 4096 ≠ 0
      ∧ (∀ y ∈ [(16384, 16384 * 4096), (256, 256 * 4096)],
          ((rc (BitVec.ofNat 32 y.2)).reg Reg.recLen).toNat = y.2 ∧ y.2 ≠ 0 ∧ y.2 % 4096 = 0 ∧ y.2 / 4096 ≤ y.1
            ∧ ¬ (y.2 + 4096) / 4096 ≤ y.1) := by decide

/-- Mailbox 0 is in state `st` and holds the message `b`; the SPDM exchange of each channel is at stage 3 but on channel 0. -/
def tumbler0 (st : Nat) (b : List Byte) (m : List Host.Cell := []) (c : Option (List Byte) := none) : State :=
  { mod0 { input := true, ready := true, mbx := [(0, { st := st })], spdm := [(1, 3), (2, 3), (3, 3), (4, 3)] } { config := c } with mem := m }.mbxPut 0 b

/-- A request to Tumbler. -/
def ask (op : Nat) (rest : List Byte := []) : List Byte := toBytes 4 op ++ rest

theorem test_witness_TumblerRequests :
    let s (st : Nat) (b : List Byte) (c : Option (List Byte) := none) := tumbler0 st b [] c
    let stage (a n : Nat) := ask 3 (toBytes 8 a ++ toBytes 4 n)
    let cert (off n : Nat) := ask 4 (toBytes 4 off ++ toBytes 4 n)
    (s 0 (ask 1)).hears .joinery = true ∧ mbxAsks 0 = .joinery ∧ mbxAsks 1 = .h0 ∧ (s 0 (ask 1)).hears .h0 = true ∧ (s 0 (ask 1)).mailbox 0 = { st := 0 }
      ∧ 4 ≤ (s 0 (ask 1)).mbxLen 0 ∧ num ((s 0 (ask 1)).mbxMsg 0) 0 4 = 1 ∧ num ((s 0 (ask 5)).mbxMsg 0) 0 4 = 5 ∧ ((s 2 (ask 1)).mailbox 0).st = 2
      ∧ (∀ op ∈ [1, 2, 3, 4], (s 1 (ask op)).asked op = some (ask op) ∧ (s 0 (ask op)).asked op = none)
      ∧ (s 1 (ask 1 (List.replicate 32 7))).asked 1 = some (ask 1 (List.replicate 32 7)) ∧ (ask 1 (List.replicate 32 7)).length = 36 ∧ (ask 1).length < 36
      ∧ (s 1 (ask 2 [3])).asked 2 = some (ask 2 [3]) ∧ num (ask 2 [3]) 4 1 = 3 ∧ (ask 2 [3]).length = 5 ∧ num (ask 2 [4]) 4 1 > 3
      ∧ cfgGood (s 1 (ask 2 [3]) (some [])).flashConfig = []
      ∧ num (stage (2 ^ 32) 0) 12 4 = 0 ∧ (s 1 (stage (2 ^ 32) 0)).asked 3 = some (stage (2 ^ 32) 0)
      ∧ (s 1 (stage 0 4096)).unowned 0 4096 = false ∧ num (stage (2 ^ 32) (16385 * 4096)) 12 4 / 4096 > 16384
      ∧ (let y := { s 1 (stage (2 ^ 32) 4096) with poison := [(2 ^ 32 / 64, ())] }
         y.asked 3 = some (stage (2 ^ 32) 4096) ∧ y.unowned (2 ^ 32) 4096 = true ∧ y.flt.shutdown = false ∧ (y.readHbm none (2 ^ 32) 4096).bad = true)
      ∧ (s 1 (cert 0 0)).asked 4 = some (cert 0 0) ∧ num (cert 0 0) 8 4 = 0 ∧ num (cert 0 0) 4 4 = 0 ∧ num (cert 0 4097) 8 4 > 4096
      ∧ (s 0 []).spdmOpen 1 = true ∧ (mod0 {}).spdmOpen 1 = false ∧ (s 0 []).spdmAt 1 = 3 ∧ (s 0 []).spdmAt 0 = 0 ∧ (s 0 []).spdmOpen 0 = true
      ∧ (1 : Fin 8).val ≠ 0 ∧ (8 : Byte).toNat ≠ 255 ∧ 8 ≤ (8 : Byte).toNat ∧ (255 : Byte).toNat = 255 ∧ (0 : Byte).toNat < 8 := by decide +kernel

/-- FIPS 180-4: the digest of the empty message. -/
def digest0 : List Byte :=
  [0xcf, 0x83, 0xe1, 0x35, 0x7e, 0xef, 0xb8, 0xbd, 0xf1, 0x54, 0x28, 0x50, 0xd6, 0x6d, 0x80, 0x07, 0xd6, 0x20, 0xe4, 0x05, 0x0b, 0x57, 0x15, 0xdc,
   0x83, 0xf4, 0xa9, 0x21, 0xd3, 0x6c, 0xe9, 0xce, 0x47, 0xd0, 0xd1, 0x3c, 0x5d, 0x85, 0xf2, 0xb0, 0xff, 0x83, 0x18, 0xd2, 0x87, 0x7e, 0xec, 0x2f,
   0x63, 0xb9, 0x31, 0xbd, 0x47, 0x41, 0x7a, 0x81, 0xa5, 0x38, 0x32, 0x7a, 0xf9, 0x27, 0xda, 0x3e]

theorem test_sha512_empty : sha512 [] = digest0 := by decide +kernel

/-- An image without a body. -/
def image0 : List Byte :=
  [0x4C, 0x5A, 0x38, 0x4A, 1, 0, 0, 0] ++ List.replicate 56 0 ++ digest0 ++ List.replicate 3968 0

/-- STAGE_IMAGE of what stands in 4,096 bytes of unowned memory; the configuration record is empty. -/
def stage0 : State :=
  tumbler0 1 (ask 3 (toBytes 8 (2 ^ 32) ++ toBytes 4 4096)) (memPuts [] (2 ^ 32) image0) (some [])

theorem image0_ok : imgHeaderOk image0 = true := by
  have l : image0.length = 4096 := by simp only [image0, digest0, List.length_append, List.length_replicate, List.length_cons, List.length_nil]
  have h : (cut image0 0 4 == [0x4C, 0x5A, 0x38, 0x4A] && num image0 4 2 == 1 && num image0 0x10 4 == 0 && zeroIn image0 6 8 && zeroIn image0 0x18 0x40
    && zeroIn image0 0x80 0x100 && zeroIn image0 0x184 0x1000) = true := by decide +kernel
  simp only [Bool.and_eq_true, beq_iff_eq] at h
  obtain ⟨⟨⟨⟨⟨⟨a, b⟩, c⟩, d⟩, e⟩, f⟩, g⟩ := h
  rw [imgHeaderOk, a, b, c, d, e, f, g, l]
  rfl

theorem memGets_split (m : List Host.Cell) (a k n : Nat) : memGets m a (k + n) = memGets m a k ++ memGets m (a + k) n := by
  simp only [memGets, upTo, List.range_add, List.map_append, List.map_map, Nat.add_assoc]
  rfl

/-- HBM that is sound reads as its bytes. -/
theorem readHbm_sound {s : State} (hp : s.poison = []) (hs : stacksUp s) (a n : Nat) :
    s.readHbm none a n = { bytes := memGets s.mem a n, bad := false, st := s } := by
  have one (x k : Nat) : s.readPiece none x k = { bytes := memGets s.mem x k, bad := false, st := s } := by
    have hx : (s.poisoned (x / 64) || s.pcState (hbmMap x).pc == 3) = false := by
      simp only [State.poisoned, hp, Bool.or_eq_false_iff, beq_eq_false_iff_ne]
      exact ⟨rfl, hs x⟩
    simp only [State.readPiece, hx, State.peek, Bool.false_eq_true, if_false]
  let f (r : MemRead) (pc : Nat × Nat) : MemRead :=
    { bytes := r.bytes ++ (r.st.readPiece none pc.1 pc.2).bytes, bad := r.bad || (r.st.readPiece none pc.1 pc.2).bad,
      st := (r.st.readPiece none pc.1 pc.2).st }
  have all : ∀ (fuel a n : Nat) (bs : List Byte), n = 0 ∨ n + a % 64 ≤ 64 * fuel →
      (pieces a n fuel).foldl f { bytes := bs, bad := false, st := s } = { bytes := bs ++ memGets s.mem a n, bad := false, st := s } := by
    intro fuel
    induction fuel with
    | zero =>
      intro a n bs h
      obtain rfl : n = 0 := by omega
      simp [pieces, memGets, upTo]
    | succ fuel ih =>
      intro a n bs h
      unfold pieces
      split
      · next h0 => subst h0; simp [memGets, upTo]
      · have e : min n (64 - a % 64) + (n - min n (64 - a % 64)) = n := by omega
        rw [List.foldl_cons, show f { bytes := bs, bad := false, st := s } (a, min n (64 - a % 64))
          = { bytes := bs ++ memGets s.mem a (min n (64 - a % 64)), bad := false, st := s } by simp only [f, one, Bool.or_self]]
        have hk : n - min n (64 - a % 64) = 0 ∨ n - min n (64 - a % 64) + (a + min n (64 - a % 64)) % 64 ≤ 64 * fuel := by
          rcases Nat.le_total n (64 - a % 64) with hle | hle
          · exact .inl (by rw [Nat.min_eq_left hle]; omega)
          · exact .inr (by rw [Nat.min_eq_right hle]; omega)
        rw [ih _ _ _ hk, List.append_assoc, ← memGets_split, e]
  exact all _ a n [] (.inr (by omega))

theorem mbxPut_same (s : State) (k : Nat) (bs : List Byte) : (s.mbxPut k bs).mem = s.mem ∧ (s.mbxPut k bs).poison = s.poison
    ∧ (s.mbxPut k bs).flash = s.flash := by
  unfold State.mbxPut
  generalize upTo ((bs.length + 3) / 4) = l
  have one : ∀ (l : List Nat) (s t : State), t.mem = s.mem ∧ t.poison = s.poison ∧ t.flash = s.flash →
      let u := l.foldl (fun s i => s.setReg (mbxData k + 4 * i) (BitVec.ofNat 32 (num bs (4 * i) 4))) t
      u.mem = s.mem ∧ u.poison = s.poison ∧ u.flash = s.flash := by
    intro l
    induction l with
    | nil => exact fun _ _ h => h
    | cons x l ih => exact fun s t h => ih s _ h
  exact one l s _ ⟨rfl, rfl, rfl⟩

theorem stage0_read : stage0.readHbm none (2 ^ 32) 4096 = { bytes := image0, bad := false, st := stage0 } := by
  have up : stacksUp stage0 := stacksUp_of (by decide +kernel)
  have hm : stage0.mem = memPuts [] (2 ^ 32) image0 := by simp only [stage0, tumbler0, mbxPut_same]
  have hp : stage0.poison = [] := (mbxPut_same _ _ _).2.1
  have hl : image0.length = 4096 := by
    simp only [image0, digest0, List.length_append, List.length_replicate, List.length_cons, List.length_nil]
  rw [readHbm_sound hp up, hm, memGets_memPuts _ _ _ _ hl]

theorem test_witness_TumblerRequests_image :
    stage0.asked 3 = some (ask 3 (toBytes 8 (2 ^ 32) ++ toBytes 4 4096)) ∧ stage0.unowned (2 ^ 32) 4096 = true ∧ stage0.flt.shutdown = false
      ∧ (stage0.readHbm none (2 ^ 32) 4096).bad = false :=
  ⟨by decide +kernel, by decide +kernel, rfl, by rw [stage0_read]⟩

/-- What decides whether an image that is sound otherwise stands its checks: the keys of the module (R594). -/
def keysPass (b : List Byte) : Bool :=
  sha512 (Config.certBytes 0) == Config.rootDigest && Config.certOk (num b 0x14 4)
    && Config.verifies (Config.certKey (num b 0x14 4)) (sha512 (cut b 0 0x100)) (cut b 0x100 132)

theorem stageCheck_of {s : State} {b : List Byte} (hh : imgHeaderOk b = true) (hv : ¬ imgSvn b < cfgMinSvn s.flashConfig) (hz : num b 0x10 4 = 0)
    (hd : cut b 0x40 64 = digest0) : s.stageCheck b = if keysPass b then 0 else 2 := by
  have e : imgSigned b = keysPass b := by
    unfold imgSigned keysPass
    rw [imgBody, hz, hd, show cut b 0x1000 0 = [] from List.take_zero, test_sha512_empty]
    simp only [beq_self_eq_true, Bool.and_true]
  unfold State.stageCheck
  rw [hh, e, if_neg hv]
  cases keysPass b <;> rfl

/-- Where the keys of the module verify it, the image stands every check of a staging; where they do not, it fails one. -/
theorem test_witness_TumblerRequests_stage :
    (stage0.readHbm none (2 ^ 32) 4096).st.stageCheck (stage0.readHbm none (2 ^ 32) 4096).bytes = if keysPass image0 then 0 else 2 := by
  rw [stage0_read]
  have hc : stage0.flashConfig = [] := congrArg (fun f : FlashSt => f.config.getD Config.flashConfig) (mbxPut_same _ _ _).2.2
  exact stageCheck_of image0_ok (by rw [hc]; exact Nat.not_lt_zero _) (by decide +kernel) (by decide +kernel)

/-- A REPAIR section without a body. -/
def repair0 : List Byte := [3, 0, 0, 0, 0, 0, 0, 0] ++ List.replicate 132 0

theorem sections_repair0 (fuel k : Nat) (h : k ≤ fuel) : sections fuel (List.replicate k repair0).flatten
    = List.replicate k { type := 3, oseq := 0, body := [], sig := List.replicate 132 0, all := repair0.take 8 } := by
  induction fuel generalizing k with
  | zero => obtain rfl : k = 0 := by omega
            rfl
  | succ n ih =>
    cases k with
    | zero => rfl
    | succ k =>
      rw [List.replicate_succ, List.replicate_succ, List.flatten_cons, ← ih k (by omega)]
      rfl

/-- The 256 bytes before the sections of a record of 1,024 REPAIR sections. -/
def head0 : List Byte := List.replicate 8 0 ++ toBytes 4 (0x100 + 140 * 1024) ++ List.replicate 244 0

def full0 : List Byte := head0 ++ (List.replicate 1024 repair0).flatten

/-- Where their signatures verify, no REPAIR section more is taken. -/
theorem test_witness_TumblerRequests_repairs (h : ∀ k d sig, Config.verifies k d sig = true) :
    (cfgGood (tumbler0 1 (ask 2 [3]) [] (some full0)).flashConfig).countP (fun x => x.type == 3) = 1024 := by
  have e : (tumbler0 1 (ask 2 [3]) [] (some full0)).flashConfig = full0 := rfl
  have n : num full0 8 4 - 0x100 = 140 * 1024 := by decide +kernel
  have l : ((List.replicate 1024 repair0).flatten).length = 140 * 1024 := by
    rw [List.length_flatten, List.map_replicate, List.sum_replicate_nat]
    decide +kernel
  have d : cut full0 0x100 (140 * 1024) = (List.replicate 1024 repair0).flatten := by
    rw [cut, full0, List.drop_left' (by decide +kernel), ← l, List.take_length]
  have good : ∀ x : Sect, sectOk x = true := fun x => by rw [sectOk, h]; rfl
  rw [e, cfgGood, cfgSections, n, d, sections_repair0 _ _ (by decide), List.filter_eq_self.mpr (fun x _ => good x), List.countP_replicate]
  rfl
/-! ### Management and registers -/

theorem test_witness_PldmCommands :
    let up := mod0 { input := true, ready := true, mbx := [(1, { st := 1 }), (2, { st := 1 })] }
    let early := mod0 { input := true, kind := 2, mbx := [(1, { st := 1 })] }
    let off := mod0 {}
    (∀ e ∈ [0, 1, 2], up.mctpOpen e = true) ∧ (∀ e ∈ [0, 1, 2], off.mctpOpen e = false) ∧ up.tumblerRuns = true ∧ up.start.i3c = none
      ∧ (∀ c ∈ [0, 1, 2, 3, 4], up.pldmOpen c = true ∧ off.pldmOpen c = false) ∧ (∀ c ∈ [0, 1, 3], early.pldmOpen c = true) ∧ early.joineryRuns = false
      ∧ up.joineryRuns = true ∧ (28 : BitVec 16).toNat ≤ 28 ∧ 28 < (29 : BitVec 16).toNat ∧ (29 : Word).toNat ≤ 29 ∧ 29 < (30 : Word).toNat
      ∧ (fixedThr 1 0 true).isSome = true ∧ (1 : Fin 3).val ≠ 0 ∧ (up.threshold 1 0 true).isSome = true ∧ up.flt.again = false
      ∧ up.unowned 0x1000 3 = false ∧ up.unowned 0x100000000 3 = true ∧ up.regs = owned := by decide +kernel

/-- `n` entries of the fault record from `head` on, with numbers from 0. -/
def faults (n head : Nat) (copy : List Nat := []) : FltSt :=
  { head := head, count := n, toCopy := copy, entries := (List.range n).map (fun i => ((head + i) % 256,
      { stamp := 1, turn := 2, source := 3, sev := 4, cause := 5, rep := 6, loc := 7, addr := 8, seq := i })) }

theorem test_witness_SensorsAndFaults :
    let up := mod0 { input := true, ready := true }
    let s (v : Word) (by_ : Requester := .joinery) : State := { up with flt := faults 10 250, latch := { db := some { reg := .fltClear, val := v, by_ := by_ } } }
    let copy : State := { up with flt := faults 3 250 [1, 2] }
    up.tumblerRuns = true ∧ (mod0 {}).tumblerRuns = false ∧ up.nextSensor 1 400 = 0 ∧ up.nextSensor 1 2000 = 3 ∧ up.sensorState 1 ≠ 3
      ∧ up.flt.shutdown = false ∧ up.throttled 0 = false ∧ (mod0 up.start {} false [(Reg.fltSensor 1, 0x200000)]).throttled 0 = true
      ∧ up.flt.toCopy = [] ∧ copy.flt.toCopy = [1, 2] ∧ copy.joineryRuns = true ∧ (mod0 {}).joineryRuns = false
      ∧ (List.find? (fun (y : Nat × FltEntry) => y.2.seq == 1) copy.flt.entries).isSome = true
      ∧ (s 3).hears .joinery = true ∧ (s 3).latch.db = some { reg := .fltClear, val := 3, by_ := .joinery } ∧ (s 3 .h0).hears .h0 = true
      ∧ (s 3 .h0).latch.db = some { reg := .fltClear, val := 3, by_ := .h0 } ∧ (0 : Word) ≠ ~~~(3 : Word)
      ∧ bits (3 : Word) 0 9 = 3 ∧ (s 3).flt.count = 10 ∧ (s 3).flt.head = 250 ∧ bits (11 : Word) 0 9 = 11 ∧ bits (0 : Word) 0 9 = 0
      ∧ (∀ k ∈ [0, 1, 2], ((s 3).flt.entries.find? ((250 + k) % 256)).isSome = true) := by decide +kernel

theorem test_witness_LatchAndDeadbolt :
    let go : StartSt := { input := true, ready := true }
    let p : LwPend := { mask := 0xF0, val := 0x30 }
    let s (own : Word) : State := { mod0 go {} false [(0x100000, 0x200), (Reg.lchOwn, own)] with latch := { pend := [(0x100000, p)] } }
    let l (reg : DbReg) (v : Word) (by_ : Requester := .joinery) (q : Tab Queue := []) : State :=
      { mod0 go with latch := { db := some { reg := reg, val := v, by_ := by_ } }, host := { queues := q } }
    let regs : List DbReg := [.memPartOwn 0, .memPartOwn 3, .memRange 0, .memRange 191, .hqOwn 0, .hqOwn 63, .lchOwn, .secLock]
    (mod0 {}).hears .h0 = false ∧ (s 0).hears .joinery = true ∧ (s 0).latch.pend.filter (fun y => y.1 == 0x100000) = [(0x100000, p)]
      ∧ (regAcc 0x100000).lw ≠ 0 ∧ (s 0).lwGroup 0x100000 = 2
      ∧ 0x100000 ∉ (s 0).latch.arrived ∧ 0x100000 ∈ ({ s 0 with latch := { (s 0).latch with arrived := [0x100000] } } : State).latch.arrived
      ∧ ((s 0).ownedBits .joinery 4).getLsbD 2 = true ∧ ((s 0).ownedBits .h0 4).getLsbD 2 = false
      ∧ (s 0).latch.pend.find? Reg.lchIgnored = none ∧ (s 0).latch.db = none
      ∧ (∀ g ∈ regs, (l g 7).latch.db = some { reg := g, val := 7, by_ := .joinery } ∧ (l g 7 .h0).latch.db = some { reg := g, val := 7, by_ := .h0 })
      ∧ (l .lchOwn 7 .h0).hears .h0 = true ∧ (0 : Word) ≠ ~~~(7 : Word) ∧ DbReg.lchOwn ≠ .trnPeriod ∧ DbReg.lchOwn ≠ .secLock
      ∧ (l .secLock 7 .tumbler).hears .tumbler = true ∧ (l .secLock 7 .tumbler).latch.db = some { reg := .secLock, val := 7, by_ := .tumbler }
      ∧ (l (.memPartOwn 0) 4).partValid 0 = true ∧ (l (.memPartOwn 3) 4).partValid 3 = false ∧ bit (4 : Word) 2 = true ∧ bits (3 : Word) 0 2 = 3
      ∧ (∀ q ∈ (l (.hqOwn 0) 1 .joinery [(600, { st := .active })]).host.queues, q.1 / 256 = 0 → q.2.st = .off)
      ∧ (∃ q ∈ (l (.hqOwn 0) 1 .joinery [(5, { st := .active })]).host.queues, q.1 / 256 = 0 ∧ q.2.st ≠ .off) := by decide +kernel

theorem test_witness_RegisterBus :
    let s := seqEntry 1 5 3
    let up : State := { s with start := { ready := true, input := true } }
    let deaf : State := { s with start := {} }
    (∀ o ∈ [0x10000, 0x10001, Reg.seqCmd 0, 0x300000, 0x300100, 0x100000, 0x200000, Reg.glbTimeLo, Reg.trnNumLo, Reg.trnTickLo, Reg.trnEvent, 0, 0xFFFC],
        up.bar0Hears .h0 o = true ∧ up.bar0Hears .h1 o = true ∧ up.bar0Hears .joinery o = true ∧ (BitVec.ofNat 26 o).toNat = o)
      ∧ deaf.bar0Hears .h0 0x10000 = false ∧ (0x10001 : Nat) % 4 ≠ 0
      ∧ (0 : Fin 262144).val = bits (0x100000 : Word) 0 18 ∧ bits (0x100000 : Word) 20 4 = 1 ∧ bits (0x200000 : Word) 20 4 = 2
      ∧ up.latch.writes = [] ∧ ({ up with latch := { writes := [(.joinery, 0x300100, 5)] } } : State).latch.writes = [(.joinery, 0x300100, 5)]
      ∧ Requester.joinery ≠ .tumbler ∧ dbAt 0x300000 = none ∧ dbAt 0x300100 = none ∧ dbAt 0x3001FC = none ∧ Reg.memIrqEn ≠ 0x300100
      ∧ Requester.h0.port? = some 0 ∧ up.partHost ((0x300100 - 0x300100) / 0x10) = 1 ∧ up.partHost ((0x300110 - 0x300100) / 0x10) ≠ 1
      ∧ up.ownsQueue .h1 ((0x100000 - 0x100000) / 0x40) = false ∧ deaf.portsLive = false ∧ up.portsLive = true := by decide +kernel

end Sys2Proof.Tests
end

section
/-!
PROOFS. Proofs/IntegerGroup.lean: the ZI8 group of the matrix engine (R113): the fold over the products is their exact sum, and the
two parts of the result, the entry and the flags, are read off the three branches of `foldInt`.
-/
namespace Sys2Proof.Proofs
open Sys2Proof Sys2Proof.Machine

/-- The accumulation is over integers, so it is the sum of the entry and the products, whatever the order. -/
theorem foldl_products_eq_add_sum (ab : List (Int × Int)) (c : Int) :
    ab.foldl (fun s p => s + p.1 * p.2) c = c + (ab.map (fun p => p.1 * p.2)).sum := by
  induction ab generalizing c with
  | nil => rw [List.foldl_nil, List.map_nil, List.sum_nil, Int.add_zero]
  | cons p ab ih => rw [List.foldl_cons, ih, List.map_cons, List.sum_cons, Int.add_assoc]

section bounds
variable {c sum : Int} {ab : List (Int × Int)} (exact_sum : c + (ab.map (fun p => p.1 * p.2)).sum = sum)
include exact_sum

/-- A sum within 32 bits is kept, without a flag. -/
theorem foldInt_of_fits (lo : -(2 ^ 31) ≤ sum) (hi : sum ≤ 2 ^ 31 - 1) : foldInt c ab = (sum, 0) := by
  simp only [foldInt, foldl_products_eq_add_sum, exact_sum, Int.add_zero]
  rw [if_neg (Int.not_lt.mpr hi), if_neg (Int.not_lt.mpr lo)]

/-- A sum above the range saturates to its upper bound. -/
theorem foldInt_of_above (above : 2 ^ 31 - 1 < sum) : foldInt c ab = (2 ^ 31 - 1, fOverflow ||| fInexact) := by
  simp only [foldInt, foldl_products_eq_add_sum, exact_sum, Int.add_zero]
  rw [if_pos above]

/-- A sum below the range saturates to its lower bound. -/
theorem foldInt_of_below (below : sum < -(2 ^ 31)) : foldInt c ab = (-(2 ^ 31), fOverflow ||| fInexact) := by
  have not_above : ¬ sum > 2 ^ 31 - 1 := by omega
  simp only [foldInt, foldl_products_eq_add_sum, exact_sum, Int.add_zero]
  rw [if_neg not_above, if_pos below]

end bounds

/-- Settles O28, by the place of the exact sum: above the 32-bit range, below it, or within it. -/
theorem integerGroup : Obligations.IntegerGroup := by
  intro c ab sum fits
  rcases Int.lt_or_le (2 ^ 31 - 1) sum with above | hi
  · rw [foldInt_of_above (sum := sum) rfl above]
    exact ⟨by omega, fun h => absurd h.2 (Int.not_le.mpr above), fun _ => rfl⟩
  · rcases Int.lt_or_le sum (-(2 ^ 31)) with below | lo
    · rw [foldInt_of_below (sum := sum) rfl below]
      exact ⟨by omega, fun h => absurd h.1 (Int.not_le.mpr below), fun _ => rfl⟩
    · rw [foldInt_of_fits (sum := sum) rfl lo hi]
      exact ⟨by omega, fun _ => rfl, fun h => absurd ⟨lo, hi⟩ h⟩

end Sys2Proof.Proofs
end

section
/-!
PROOFS. Proofs/Exceptions.lean: what an exception of a thread does (R223): the interrupt it raises changes output and pending bits alone
(R642 to R644), so its event bit stays set and the rest is as it was.
-/
namespace Sys2Proof.Proofs
open Sys2Proof Sys2Proof.Machine Sys2Proof.Safety

/-! ### Bits and fields -/

theorem bit_eq_decide_bits {n : Nat} (x : BitVec n) (i : Nat) : bit x i = decide (bits x i 1 = 1) :=
  Nat.testBit_eq_decide_div_mod_eq

/-- A bit that is written 1 reads 1. -/
theorem bit_setBits_one {n : Nat} (x : BitVec n) {i : Nat} (h : i < n) : bit (setBits x i 1 1) i = true := by
  rw [bit_eq_decide_bits, bits_setBits_field x i 1 1 h]
  rfl

theorem fld_lt (s : State) (r lo w : Nat) : s.fld r lo w < 2 ^ w := Nat.mod_lt _ (Nat.two_pow_pos w)

/-! ### Interrupts (R643, R644) -/

/-- `u` is `s` after interrupts: output may have left, and registers below those of the links may have changed, where the
pending bits of the two ports lie (R643). -/
structure Signalled (s u : State) : Prop where
  frame : u = { s with regs := u.regs, out := u.out }
  reg : ∀ r, lnkBase 0 ≤ r → u.reg r = s.reg r

theorem signalled_refl (s : State) : Signalled s s := ⟨rfl, fun _ _ => rfl⟩

theorem signalled_emit (s : State) (o : Output) : Signalled s (s.emit o) := ⟨rfl, fun _ _ => rfl⟩

theorem Signalled.trans {s u v : State} (hu : Signalled s u) (hv : Signalled u v) : Signalled s v where
  frame := by rw [hv.frame, hu.frame]
  reg r h := (hv.reg r h).trans (hu.reg r h)

/-- A message on one of the 2,048 vectors of a port is sent, or its pending bit set. -/
theorem signalled_msiDue (s : State) {port v : Nat} (hp : port < 2) (hv : v < 2048) : Signalled s (s.msiDue port v) := by
  unfold State.msiDue
  split
  · refine ⟨rfl, fun r above => ?_⟩
    have pending_below : pbaReg port v < lnkBase 0 := by
      unfold pbaReg lnkBase
      omega
    rw [State.reg_setFld, if_neg (by omega)]
  · exact signalled_emit s _

theorem signalled_route (s : State) (k : Nat) : Signalled s (s.route k) := by
  simp only [State.route]
  split
  · exact signalled_msiDue s (fld_lt ..) (fld_lt ..)
  · exact signalled_refl s

/-- A change of the registers of a source does, beside them, only what its pin and its route do. -/
theorem signalled_srcChange (k : Nat) (s s' : State) : Signalled s' (srcChange k s s') := by
  simp only [srcChange]
  have pin : Signalled s' (if k = 2 ∧ s.asserted k ≠ s'.asserted k then s'.emit (.pin "MOD_ALERT_N" (!s'.asserted k)) else s') := by
    split
    · exact signalled_emit s' _
    · exact signalled_refl s'
  split
  · exact pin.trans (signalled_route _ k)
  · exact pin

theorem signalled_ccr (s : State) (l b : Nat) : Signalled (s.setFld (ctxWin l + 4) b 1 1) (s.ccr l b) := by
  have event_reg : (srcRegs (16 + l)).1 = ctxWin l + 4 := by
    unfold srcRegs
    repeat rw [if_neg (by omega)]
    rw [Nat.add_sub_cancel_left]
  rw [← event_reg]
  exact signalled_srcChange ..

/-- An event bit of a core that is set reads 1, whatever message its interrupt makes due (R225). -/
theorem bit_ccr (s : State) (l : Nat) {b : Nat} (h : b < 32) : bit ((s.ccr l b).reg (ctxWin l + 4)) b = true := by
  rw [(signalled_ccr s l b).reg _ (by unfold lnkBase ctxWin; omega), State.reg_setFld, if_pos rfl]
  exact bit_setBits_one _ h

/-! ### Exceptions (R223) -/

/-- A thread as an exception leaves it. -/
def faultedThread (x : Thread) (cause code : Nat) (addr : Option Nat) : Thread :=
  { x with
    st := .faulted
    wait := .none
    excCause := BitVec.ofNat 8 cause
    excCode := BitVec.ofNat 12 code
    excAddr := addr.elim x.excAddr (BitVec.ofNat 64) }

section except
variable (s : State) (l t cause code : Nat) (addr : Option Nat)

/-- An exception writes its thread and raises its event; memory and the cores do not see the interrupt. -/
theorem except_frame : s.except l t cause code addr = { s.setThread l t (faultedThread (s.thread l t) cause code addr) with
    regs := (s.except l t cause code addr).regs, out := (s.except l t cause code addr).out } :=
  (signalled_ccr (s.setThread l t (faultedThread (s.thread l t) cause code addr)) l t).frame

theorem except_mem : (s.except l t cause code addr).mem = s.mem := by
  rw [except_frame]
  rfl

theorem except_mc : (s.except l t cause code addr).mc = s.mc := by
  rw [except_frame]
  rfl

theorem except_core (k : Nat) :
    (s.except l t cause code addr).core k = (s.setThread l t (faultedThread (s.thread l t) cause code addr)).core k := by
  rw [except_frame]
  rfl

theorem except_thread (k u : Nat) : (s.except l t cause code addr).thread k u =
    if k = l ∧ u = t then faultedThread (s.thread l t) cause code addr else s.thread k u := by
  rw [← State.thread_setThread]
  exact congrArg (fun c : LCore => c.threads.get {} u) (except_core ..)

end except

/-- An instruction that issues and raises an exception does nothing beside. -/
theorem issue_except_tookException (s : State) (l : Nat) (t : Fin 8) (cause code : Nat) (addr : Option Nat) :
    tookException s ((s.issue l t).except l t cause code addr) l t cause code := by
  have own : ((s.issue l t).except l t cause code addr).thread l t = faultedThread (issuedThread (s.thread l t)) cause code addr := by
    rw [except_thread, if_pos ⟨rfl, rfl⟩, issue_thread, if_pos ⟨rfl, rfl⟩]
  have event : bit (((s.issue l t).except l t cause code addr).reg (ctxWin l + 4)) t = true := bit_ccr _ l (by omega)
  have cores : ∀ k, k ≠ l → ((s.issue l t).except l t cause code addr).core k = s.core k := fun k other => by
    rw [except_core, State.core_setThread, if_neg other, issue_core, if_neg other]
  have threads : ∀ m, m ≠ t.val → ((s.issue l t).except l t cause code addr).thread l m = s.thread l m := fun m other => by
    rw [except_thread, if_neg (other ·.2), issue_thread, if_neg (other ·.2)]
  unfold tookException
  rw [own, except_mem, except_mc]
  exact ⟨rfl, rfl, rfl, rfl, rfl, rfl, rfl, event, rfl, rfl, cores, threads⟩

end Sys2Proof.Proofs
end

section
/-!
PROOFS. Proofs/SummaryRead.lean: RDSUM (R219): what it does once it issues, by its immediate and by whether the slot is pending.
-/
namespace Sys2Proof.Proofs
open Sys2Proof Sys2Proof.Machine Sys2Proof.Safety

theorem issue_slotPending (s : State) (l t slot : Nat) : (s.issue l t).slotPending l slot = s.slotPending l slot := by
  unfold State.slotPending
  rw [issue_core, if_pos rfl]

theorem issue_sums (s : State) (l t : Nat) : ((s.issue l t).core l).sums = (s.core l).sums := by
  rw [issue_core, if_pos rfl]

/-- An instruction that runs and sets its thread past itself with `v` in GD gives `v` and does nothing else. -/
theorem issue_setThread_givesG {s : State} {l t : Nat} {g : Guard} (gd : Fin 32) (v : Dword) (h : runs s l t g) :
    givesG s ((s.issue l t).setThread l t ((issuedThread (s.thread l t)).next.setG gd v)) l t gd v := by
  have gives := toG_gives s l t g gd (fun _ => v) h
  rwa [State.toG, scalar_runs s l t g _ h] at gives

/-- The thread of an RDSUM that waits for slot `slot`. -/
def awaitingSummary (x : Thread) (slot gd : Nat) : Thread := { x.next with st := .wait, wait := .summary slot gd }

section rdsum
variable {s : State} {c : Fin 128} {t : Fin 8} {g : Guard} (gd : Fin 32) (imm : BitVec 12) (h : runs s c t g)
include h

/-- RDSUM as it issues, with the fields of the immediate read as numbers: IMM[11:3], IMM[2] and the slot IMM[1:0]. -/
theorem exec_rdsum_of_runs : exec (.rdsum c t g gd imm) s = .next (
    if 8 ≤ imm.toNat then (s.issue c t).illegal c t 0x32
    else if s.slotPending c (4 * t + imm.toNat % 4) = true ∧ imm.toNat % 8 < 4 then
      (s.issue c t).setThread c t (awaitingSummary (issuedThread (s.thread c t)) (imm.toNat % 4) gd)
    else (s.issue c t).setThread c t
      ((issuedThread (s.thread c t)).next.setG gd ((s.core c).sums.get 0 (4 * t + imm.toNat % 4)))) := by
  have slot : bits imm 0 2 = imm.toNat % 4 := by simp [bits]
  have reserved : bits imm 3 9 ≠ 0 ↔ 8 ≤ imm.toNat := by
    have := imm.isLt
    unfold bits
    omega
  have waits : (!bit imm 2) = true ↔ imm.toNat % 8 < 4 := by
    rw [bit_eq_decide_bits, Bool.not_eq_true', decide_eq_false_iff_not]
    unfold bits
    omega
  change execRdsum c t g gd imm s = _
  simp only [execRdsum, scalar_runs s c t g _ h, slot, reserved, issue_slotPending, issue_sums, Bool.and_eq_true, waits,
    awaitingSummary]

theorem rdsum_illegal (reserved : 8 ≤ imm.toNat) : nextHas (exec (.rdsum c t g gd imm) s) (fun u => tookException s u c t 1 0x32) := by
  refine ⟨_, exec_rdsum_of_runs gd imm h, ?_⟩
  rw [if_pos reserved]
  exact issue_except_tookException s c t 1 0x32 none

theorem rdsum_returns (valid : imm.toNat < 8) (given : s.slotPending c (4 * t + imm.toNat % 4) = false ∨ imm.toNat ≥ 4) :
    nextHas (exec (.rdsum c t g gd imm) s)
      (fun u => givesG s u c t gd ((s.core c).sums.get 0 (4 * t + imm.toNat % 4))) := by
  have no_wait : ¬ (s.slotPending c (4 * t + imm.toNat % 4) = true ∧ imm.toNat % 8 < 4) := by
    rintro ⟨pending, low⟩
    rcases given with free | at_once
    · exact absurd (free.symm.trans pending) Bool.false_ne_true
    · omega
  refine ⟨_, exec_rdsum_of_runs gd imm h, ?_⟩
  rw [if_neg (Nat.not_le.mpr valid), if_neg no_wait]
  exact issue_setThread_givesG gd _ h

theorem rdsum_waits (waits : imm.toNat < 4) (pending : s.slotPending c (4 * t + imm.toNat % 4) = true) :
    nextHas (exec (.rdsum c t g gd imm) s) (fun u => onlyThread c t s u ∧ (u.thread c t).st = .wait
      ∧ (u.thread c t).wait = .summary (imm.toNat % 4) gd ∧ (u.thread c t).regs = (s.thread c t).regs) := by
  refine ⟨_, exec_rdsum_of_runs gd imm h, ?_⟩
  rw [if_neg (by omega), if_pos ⟨pending, by omega⟩]
  refine ⟨onlyThread_issue_setThread s c t _, ?_⟩
  rw [State.thread_setThread_same]
  exact ⟨rfl, rfl, rfl⟩

end rdsum

/-- Settles O8, by the three ways in which an RDSUM that issues ends: ILLEGAL, the slot, a wait. -/
theorem summaryRead : Obligations.SummaryRead := fun _ _ _ _ gd imm h =>
  ⟨rdsum_illegal gd imm h, rdsum_returns gd imm h, rdsum_waits gd imm h⟩

end Sys2Proof.Proofs
end

section
/-!
PROOFS. Proofs/TurnResolution.lean: the turn that TTURN names (R35, R251): of the turns that match TTURN, which lie 65,536 apart,
exactly one lies from n - 32,767 to n + 32,768, and being in that range makes it the nearest, the later of two.
-/
namespace Sys2Proof.Proofs
open Sys2Proof Sys2Proof.Machine

/-- How far `tturn` runs ahead of the present turn, modulo 65,536, decides between the two matching turns around the present one. -/
theorem resolveTurn_cases (s : State) (tturn : Nat) : ∃ d : Nat, d < 65536 ∧ ((s.turnNo : Int) + d - tturn) % 65536 = 0
    ∧ (d ≤ 32768 ∧ s.resolveTurn tturn = s.turnNo + d ∨ 32768 < d ∧ s.resolveTurn tturn = s.turnNo + d - 65536) := by
  refine ⟨(tturn + 65536 - s.turnNo % 65536) % 65536, Nat.mod_lt _ (by decide), by omega, ?_⟩
  simp only [State.resolveTurn]
  split
  case isTrue near => exact .inl ⟨near, Int.natCast_add _ _⟩
  case isFalse far => exact .inr ⟨Nat.lt_of_not_le far, rfl⟩

theorem resolveTurn_matches (s : State) (tturn : Nat) : (s.resolveTurn tturn - tturn) % 65536 = 0 := by
  obtain ⟨d, -, ahead, ⟨-, eq⟩ | ⟨-, eq⟩⟩ := resolveTurn_cases s tturn <;> omega

theorem resolveTurn_window (s : State) (tturn : Nat) :
    (s.turnNo : Int) - 32767 ≤ s.resolveTurn tturn ∧ s.resolveTurn tturn ≤ s.turnNo + 32768 := by
  obtain ⟨d, below, -, ⟨near, eq⟩ | ⟨far, eq⟩⟩ := resolveTurn_cases s tturn <;> omega

/-- Why the range makes `T` the nearest: another matching turn is 65,536 or more away from `T`, so a later one is more than 32,768
from `n`, as no turn of the range is, and an earlier one at least 32,768, a tie at worst, which `T` wins as the later. -/
theorem nearest_of_window {n T x : Int} (lo : n - 32767 ≤ T) (hi : T ≤ n + 32768) (agree : (x - T) % 65536 = 0) (other : x ≠ T) :
    max (T - n) (n - T) < max (x - n) (n - x) ∨ (max (T - n) (n - T) = max (x - n) (n - x) ∧ x < T) := by
  have near : max (T - n) (n - T) ≤ 32768 := Int.max_le.mpr ⟨by omega, by omega⟩
  rcases Int.lt_or_gt_of_ne other with earlier | later
  · have apart : x ≤ T - 65536 := by omega
    have distance : 32768 ≤ max (x - n) (n - x) := Int.le_trans (by omega) (Int.le_max_right _ _)
    exact (Int.lt_or_eq_of_le (Int.le_trans near distance)).imp_right (⟨·, earlier⟩)
  · have apart : T + 65536 ≤ x := by omega
    have distance : 32768 < max (x - n) (n - x) := Int.lt_of_lt_of_le (by omega) (Int.le_max_left _ _)
    exact .inl (Int.lt_of_le_of_lt near distance)

/-- Settles O29: the turn that TTURN names matches it and lies in the range, and a turn that does both is the nearest. -/
theorem turnResolution : Obligations.TurnResolution := by
  intro s tturn _ n T
  have matches_tturn : (T - tturn) % 65536 = 0 := resolveTurn_matches s tturn
  obtain ⟨lo, hi⟩ : n - 32767 ≤ T ∧ T ≤ n + 32768 := resolveTurn_window s tturn
  refine ⟨matches_tturn, lo, hi, fun x (matches_x : (x - tturn) % 65536 = 0) other => nearest_of_window lo hi ?_ other⟩
  omega

end Sys2Proof.Proofs
end
